-- ==== Sys2Proof/Word.lean ====
section
/-! DEFINITION. The word types of the block: register bytes and addresses (8 bits), raw temperatures (16 bits),
the 32-bit operand and result, the 64-bit request word and the 128-bit packed response
(00_scope.md R8, R9; 30_encoding.md R80, R84). -/

namespace Sys2Proof

/-- A register byte or a register address: both are 8 bits wide (00_scope.md R7, R9). -/
abbrev Byte := BitVec 8

/-- A 16-bit word: a raw temperature or a device identifier (00_scope.md R9). -/
abbrev Word16 := BitVec 16

/-- A 32-bit word: the `IMM` operand, a timeout, a binary32 word, the scalar result (30_encoding.md R80, R84). -/
abbrev Word32 := BitVec 32

/-- A request word (30_encoding.md R80). -/
abbrev Word64 := BitVec 64

/-- A packed response record (30_encoding.md R84). -/
abbrev Word128 := BitVec 128

end Sys2Proof
end

