-- ==== Sys2Proof/Config.lean ====
section
/-! DEFINITION. The implementation parameters of 00_scope.md R7: the fixed ones as numbers, the open ones as a
record whose value for the machine at reset is a constant without a body (log 8). -/

namespace Sys2Proof

/-- The bus address a session holds: opaque, read by no rule (10_state.md R25).
DESIGN CHOICE (log 9): an uninterpreted token, a natural number that nothing computes with. -/
structure BusAddr where
  token : Nat
  deriving DecidableEq, Repr, Inhabited

/-- The OPEN parameters of 00_scope.md R7. -/
structure Params where
  /-- `P_ALERT_EN_LEVEL`: the value of ALERT_MODE bit 7 that means enabled. -/
  alertEnLevel : BitVec 1
  /-- `P_ALERT_HALA_LEVEL`: the value of ALERT_MODE bit 6 that means HighAlarmLowAlarm. -/
  alertHalaLevel : BitVec 1
  /-- `P_EE_COPY_PAGE` -/
  eeCopyPage : Byte
  /-- `P_EE_RECALL_PAGE` -/
  eeRecallPage : Byte
  /-- `P_EE_FULL_RECALL` -/
  eeFullRecall : Byte
  /-- `P_EE_SOFT_RESET` -/
  eeSoftReset : Byte
  /-- `P_BUS_ADDR` -/
  busAddr : BusAddr
  deriving DecidableEq, Repr, Inhabited

/-- The constraint of 00_scope.md R7 on the EEPROM codes: pairwise distinct, except that full recall and soft reset
may share one code (90_conflicts.md C4). -/
def Params.admissible (p : Params) : Bool :=
  p.eeCopyPage != p.eeRecallPage && p.eeCopyPage != p.eeFullRecall && p.eeCopyPage != p.eeSoftReset &&
  p.eeRecallPage != p.eeFullRecall && p.eeRecallPage != p.eeSoftReset

/-- The open parameters of this machine, without a body: nothing can be proved about their values (log 8). -/
opaque Config.openParams : Params

/-- The parameters of the machine at reset. As `Config.openParams` ranges over every value, this ranges over exactly
the admissible ones: an inadmissible choice is replaced by one admissible record, which no proof can show to be taken
(log 8). -/
def Config.params : Params :=
  if Config.openParams.admissible then Config.openParams
  else { Config.openParams with eeCopyPage := 0, eeRecallPage := 1, eeFullRecall := 2, eeSoftReset := 2 }

/-- `P_POLL_INTERVAL_MS` (00_scope.md R7). -/
def Config.pollIntervalMs : Nat := 1

/-- `P_LATENCY_UNKNOWN_MS` (00_scope.md R7). -/
def Config.latencyUnknownMs : Nat := 18

end Sys2Proof
end

