-- ==== Sys2Proof/Syntax.lean ====
section
/-! DEFINITION. The requests of the block, one constructor per row of spec/opcode_table.json, with their operands
(30_encoding.md R81, R86 to R90, R98). Every enumerated operand is total: each bit pattern names a value (R81). -/

namespace Sys2Proof

/-- MeasurementMode (30_encoding.md R86). -/
inductive Mode where
  | continuous | stop | continuousReadback | singleShot
  deriving DecidableEq, Repr, Inhabited

/-- SampleRate (30_encoding.md R87), from 8 Hz down to 1/16 Hz. -/
inductive Rate where
  | mps8Hz | mps4Hz | mps2Hz | mps1Hz | mps1over2Hz | mps1over4Hz | mps1over8Hz | mps1over16Hz
  deriving DecidableEq, Repr, Inhabited

/-- AveragingCount (30_encoding.md R88). -/
inductive Avg where
  | avg1 | avg8 | avg16 | avg32
  deriving DecidableEq, Repr, Inhabited

/-- The `mode` operand of an alert request (30_encoding.md R90). -/
inductive AlertMode where
  | highAlarmLowClear | highAlarmLowAlarm
  deriving DecidableEq, Repr, Inhabited

/-- A legal request: one constructor per row of the opcode map (30_encoding.md R98), in the table's order. -/
inductive Instr where
  | encCmd (mode : Mode) (heater : Bool)
  | decCmd (byte : Byte)
  | encCfg (rate : Rate) (avg : Avg) (sleep : Bool)
  | decCfg (byte : Byte)
  | decStatus (byte : Byte)
  | encAlert (enabled : Bool) (mode : AlertMode)
  | decAlert (byte : Byte)
  | decRaw (lsb msb : Byte)
  | rawToC (raw : Word16)
  | cToRaw (c : Word32)
  | crc8Upd (acc byte : Byte)
  | configure (rate : Rate) (avg : Avg) (sleep : Bool)
  | setMode (mode : Mode) (heater : Bool)
  | readTemp (wait verify : Bool)
  | singleShot
  | readStatus
  | isBusy
  | heaterOn
  | heaterOff
  | setAlertMode (enabled : Bool) (mode : AlertMode)
  | getAlertMode
  | setHighLimit (c : Word32)
  | setLowLimit (c : Word32)
  | getHighLimit
  | getLowLimit
  | readDeviceId
  | readRomCode
  | readUserReg (index : Byte)
  | writeUserReg (index value : Byte)
  | readScratch
  | readScratchExt
  | setParasitic (enabled : Bool)
  | lastError
  | eeCopyPage (wait : Bool) (timeout : Word32)
  | eeRecallPage (wait : Bool) (timeout : Word32)
  | eeFullRecall (wait : Bool) (timeout : Word32)
  | eeSoftReset (wait : Bool) (timeout : Word32)
  | waitConversion (timeout : Word32)
  | waitEeprom (timeout : Word32)
  deriving DecidableEq, Repr

end Sys2Proof
end

