-- ==== Sys2Proof/WellFormed.lean ====
section
/-! DEFINITION. The checks a request must pass: the legality of its word against the opcode map (30_encoding.md R82,
R98), and the operand values that R140 step 2 and 60_exceptions.md R223 step 2 check before any primitive. The
decoder (Sys2Proof/Decode.lean) is written field by field and does not use this table; that the two agree is an
obligation. -/

namespace Sys2Proof

/-- One row of the opcode map (30_encoding.md R98). -/
structure OpcodeRow where
  mnemonic : String
  /-- the column `match` -/
  pattern : Word64
  mask : Word64
  deriving DecidableEq, Repr

/-- `REQ & mask = match` (30_encoding.md R98). -/
def OpcodeRow.selects (r : OpcodeRow) (w : Word64) : Bool := w &&& r.mask == r.pattern

/-- The opcode map's row of a request (30_encoding.md R98). -/
def Instr.row : Instr → OpcodeRow
  | .encCmd _ _ => ⟨"ENC_CMD", 0x0000000000000001, 0xFFFFFFFFFFFFF8FF⟩
  | .decCmd _ => ⟨"DEC_CMD", 0x0000000000000002, 0xFFFFFFFFFF00FFFF⟩
  | .encCfg _ _ _ => ⟨"ENC_CFG", 0x0000000000000003, 0xFFFFFFFFFFFFC0FF⟩
  | .decCfg _ => ⟨"DEC_CFG", 0x0000000000000004, 0xFFFFFFFFFF00FFFF⟩
  | .decStatus _ => ⟨"DEC_STATUS", 0x0000000000000005, 0xFFFFFFFFFF00FFFF⟩
  | .encAlert _ _ => ⟨"ENC_ALERT", 0x0000000000000006, 0xFFFFFFFFFFFFFCFF⟩
  | .decAlert _ => ⟨"DEC_ALERT", 0x0000000000000007, 0xFFFFFFFFFF00FFFF⟩
  | .decRaw _ _ => ⟨"DEC_RAW", 0x0000000000000008, 0xFFFF0000FFFFFFFF⟩
  | .rawToC _ => ⟨"RAW_TO_C", 0x0000000000000009, 0xFFFF0000FFFFFFFF⟩
  | .cToRaw _ => ⟨"C_TO_RAW", 0x000000000000000A, 0x00000000FFFFFFFF⟩
  | .crc8Upd _ _ => ⟨"CRC8_UPD", 0x000000000000000B, 0xFFFFFF00FF00FFFF⟩
  | .configure _ _ _ => ⟨"CONFIGURE", 0x0000000000000010, 0xFFFFFFFFFFFFC0FF⟩
  | .setMode _ _ => ⟨"SET_MODE", 0x0000000000000011, 0xFFFFFFFFFFFFF8FF⟩
  | .readTemp _ _ => ⟨"READ_TEMP", 0x0000000000000012, 0xFFFFFFFFFFFFFCFF⟩
  | .singleShot => ⟨"SINGLE_SHOT", 0x0000000000000013, 0xFFFFFFFFFFFFFFFF⟩
  | .readStatus => ⟨"READ_STATUS", 0x0000000000000014, 0xFFFFFFFFFFFFFFFF⟩
  | .isBusy => ⟨"IS_BUSY", 0x0000000000000015, 0xFFFFFFFFFFFFFFFF⟩
  | .heaterOn => ⟨"HEATER_ON", 0x0000000000000016, 0xFFFFFFFFFFFFFFFF⟩
  | .heaterOff => ⟨"HEATER_OFF", 0x0000000000000017, 0xFFFFFFFFFFFFFFFF⟩
  | .setAlertMode _ _ => ⟨"SET_ALERT_MODE", 0x0000000000000018, 0xFFFFFFFFFFFFFCFF⟩
  | .getAlertMode => ⟨"GET_ALERT_MODE", 0x0000000000000019, 0xFFFFFFFFFFFFFFFF⟩
  | .setHighLimit _ => ⟨"SET_HIGH_LIMIT", 0x000000000000001A, 0x00000000FFFFFFFF⟩
  | .setLowLimit _ => ⟨"SET_LOW_LIMIT", 0x000000000000001B, 0x00000000FFFFFFFF⟩
  | .getHighLimit => ⟨"GET_HIGH_LIMIT", 0x000000000000001C, 0xFFFFFFFFFFFFFFFF⟩
  | .getLowLimit => ⟨"GET_LOW_LIMIT", 0x000000000000001D, 0xFFFFFFFFFFFFFFFF⟩
  | .readDeviceId => ⟨"READ_DEVICE_ID", 0x000000000000001E, 0xFFFFFFFFFFFFFFFF⟩
  | .readRomCode => ⟨"READ_ROM_CODE", 0x000000000000001F, 0xFFFFFFFFFFFFFFFF⟩
  | .readUserReg _ => ⟨"READ_USER_REG", 0x0000000000000020, 0xFFFFFFFFFF00FFFF⟩
  | .writeUserReg _ _ => ⟨"WRITE_USER_REG", 0x0000000000000021, 0xFFFFFF00FF00FFFF⟩
  | .readScratch => ⟨"READ_SCRATCH", 0x0000000000000022, 0xFFFFFFFFFFFFFFFF⟩
  | .readScratchExt => ⟨"READ_SCRATCH_EXT", 0x0000000000000023, 0xFFFFFFFFFFFFFFFF⟩
  | .setParasitic _ => ⟨"SET_PARASITIC", 0x0000000000000024, 0xFFFFFFFFFFFFFEFF⟩
  | .lastError => ⟨"LAST_ERROR", 0x0000000000000025, 0xFFFFFFFFFFFFFFFF⟩
  | .eeCopyPage _ _ => ⟨"EE_COPY_PAGE", 0x0000000000000030, 0x00000000FFFFFEFF⟩
  | .eeRecallPage _ _ => ⟨"EE_RECALL_PAGE", 0x0000000000000031, 0x00000000FFFFFEFF⟩
  | .eeFullRecall _ _ => ⟨"EE_FULL_RECALL", 0x0000000000000032, 0x00000000FFFFFEFF⟩
  | .eeSoftReset _ _ => ⟨"EE_SOFT_RESET", 0x0000000000000033, 0x00000000FFFFFEFF⟩
  | .waitConversion _ => ⟨"WAIT_CONVERSION", 0x0000000000000034, 0x00000000FFFFFFFF⟩
  | .waitEeprom _ => ⟨"WAIT_EEPROM", 0x0000000000000035, 0x00000000FFFFFFFF⟩

/-- One request per row, in the table's order. -/
def Instr.representatives : List Instr :=
  [.encCmd .continuous false, .decCmd 0, .encCfg .mps8Hz .avg1 false, .decCfg 0, .decStatus 0,
   .encAlert false .highAlarmLowClear, .decAlert 0, .decRaw 0 0, .rawToC 0, .cToRaw 0,
   .crc8Upd 0 0, .configure .mps8Hz .avg1 false, .setMode .continuous false, .readTemp false false, .singleShot,
   .readStatus, .isBusy, .heaterOn, .heaterOff, .setAlertMode false .highAlarmLowClear,
   .getAlertMode, .setHighLimit 0, .setLowLimit 0, .getHighLimit, .getLowLimit,
   .readDeviceId, .readRomCode, .readUserReg 0, .writeUserReg 0 0, .readScratch,
   .readScratchExt, .setParasitic false, .lastError, .eeCopyPage false 0, .eeRecallPage false 0,
   .eeFullRecall false 0, .eeSoftReset false 0, .waitConversion 0, .waitEeprom 0]

/-- The opcode map (30_encoding.md R98). -/
def opcodeRows : List OpcodeRow := Instr.representatives.map Instr.row

/-- A word is legal when some row selects it (30_encoding.md R82, R83). -/
def legalWord (w : Word64) : Bool := opcodeRows.any (·.selects w)

/-- The operand values of a request are in the range its rule documents: a user-register index is at most 9
(41_session.md R160, R161), a Celsius operand is no NaN (40_codec.md R130, 41_session.md R154, R155). -/
def Instr.operandsInRange : Instr → Bool
  | .readUserReg index => index.toNat ≤ 9
  | .writeUserReg index _ => index.toNat ≤ 9
  | .cToRaw c => (c &&& 0x7FFFFFFF).toNat ≤ 0x7F800000
  | .setHighLimit c => (c &&& 0x7FFFFFFF).toNat ≤ 0x7F800000
  | .setLowLimit c => (c &&& 0x7FFFFFFF).toNat ≤ 0x7F800000
  | _ => true

end Sys2Proof
end

