-- ==== Sys2Proof/Decode.lean ====
section
/-! DEFINITION. The decoder, total on every 64-bit word (30_encoding.md R80 to R83, R98, R99), and after it the
encoder. Decoding looks only at the word (R99). An illegal word decodes to nothing; SEQ answers it with
PARAMETER_ERROR (R83), which the machine does by name (`Phase.runIllegal`). -/

namespace Sys2Proof

/-- The code of a mode (30_encoding.md R86). -/
def Mode.code : Mode → BitVec 2
  | .continuous => 0b00 | .stop => 0b01 | .continuousReadback => 0b10 | .singleShot => 0b11

/-- The mode a code names (30_encoding.md R86). -/
def Mode.ofCode (c : BitVec 2) : Mode :=
  match c.toNat with | 0 => .continuous | 1 => .stop | 2 => .continuousReadback | _ => .singleShot

/-- The code of a sample rate (30_encoding.md R87). -/
def Rate.code : Rate → BitVec 3
  | .mps8Hz => 0b000 | .mps4Hz => 0b001 | .mps2Hz => 0b010 | .mps1Hz => 0b011
  | .mps1over2Hz => 0b100 | .mps1over4Hz => 0b101 | .mps1over8Hz => 0b110 | .mps1over16Hz => 0b111

/-- The sample rate a code names (30_encoding.md R87). -/
def Rate.ofCode (c : BitVec 3) : Rate :=
  match c.toNat with
  | 0 => .mps8Hz | 1 => .mps4Hz | 2 => .mps2Hz | 3 => .mps1Hz
  | 4 => .mps1over2Hz | 5 => .mps1over4Hz | 6 => .mps1over8Hz | _ => .mps1over16Hz

/-- The code of an averaging count (30_encoding.md R88). -/
def Avg.code : Avg → BitVec 2
  | .avg1 => 0b00 | .avg8 => 0b01 | .avg16 => 0b10 | .avg32 => 0b11

/-- The averaging count a code names (30_encoding.md R88). -/
def Avg.ofCode (c : BitVec 2) : Avg :=
  match c.toNat with | 0 => .avg1 | 1 => .avg8 | 2 => .avg16 | _ => .avg32

/-- The request bit of an alert mode: 1 is HighAlarmLowAlarm (30_encoding.md R90). -/
def AlertMode.bit : AlertMode → Bool
  | .highAlarmLowClear => false | .highAlarmLowAlarm => true

/-- The alert mode a request bit names (30_encoding.md R90). -/
def AlertMode.ofBit : Bool → AlertMode
  | false => .highAlarmLowClear | true => .highAlarmLowAlarm

/-- The fields of a request word (30_encoding.md R80). -/
structure RequestFields where
  opc : Byte
  f : Byte
  d : Byte
  rsv : Byte
  imm : Word32
  deriving DecidableEq, Repr

/-- The fields of a word: `OPC` 7:0, `F` 15:8, `D` 23:16, `RSV` 31:24, `IMM` 63:32 (30_encoding.md R80). -/
def RequestFields.ofWord (w : Word64) : RequestFields :=
  ⟨w.extractLsb' 0 8, w.extractLsb' 8 8, w.extractLsb' 16 8, w.extractLsb' 24 8, w.extractLsb' 32 32⟩

/-- The word with the given fields (30_encoding.md R80). -/
def RequestFields.toWord (x : RequestFields) : Word64 := x.imm ++ (x.rsv ++ (x.d ++ (x.f ++ x.opc)))

/-- `mode = F[1:0]` of ENC_CMD and SET_MODE (30_encoding.md R98). -/
def RequestFields.mode (x : RequestFields) : Mode := Mode.ofCode (x.f.extractLsb' 0 2)

/-- `rate = F[2:0]` of ENC_CFG and CONFIGURE (30_encoding.md R98). -/
def RequestFields.rate (x : RequestFields) : Rate := Rate.ofCode (x.f.extractLsb' 0 3)

/-- `avg = F[4:3]` of ENC_CFG and CONFIGURE (30_encoding.md R98). -/
def RequestFields.avg (x : RequestFields) : Avg := Avg.ofCode (x.f.extractLsb' 3 2)

/-- `mode = F[1]` of an alert request (30_encoding.md R98). -/
def RequestFields.alertMode (x : RequestFields) : AlertMode := AlertMode.ofBit (x.f.getLsbD 1)

/-- `IMM[7:0]` (30_encoding.md R98). -/
def RequestFields.imm0 (x : RequestFields) : Byte := x.imm.extractLsb' 0 8

/-- The request `i`, if every bit of `F`, `D` and `IMM` outside the masks of used bits, and all of `RSV`, is 0
(30_encoding.md R82). -/
def RequestFields.using (x : RequestFields) (fUsed dUsed : Byte) (immUsed : Word32) (i : Instr) : Option Instr :=
  if x.f &&& ~~~fUsed = 0 ∧ x.d &&& ~~~dUsed = 0 ∧ x.imm &&& ~~~immUsed = 0 ∧ x.rsv = 0 then some i else none

/-- The request the fields select (30_encoding.md R98); nothing for an unassigned opcode (R83). The three arguments
of `using` are the bits of `F`, `D` and `IMM` that the row's operands use. -/
def RequestFields.decode (x : RequestFields) : Option Instr :=
  match x.opc.toNat with
  | 0x01 => x.using 0x07 0 0 (.encCmd x.mode (x.f.getLsbD 2))
  | 0x02 => x.using 0 0xFF 0 (.decCmd x.d)
  | 0x03 => x.using 0x3F 0 0 (.encCfg x.rate x.avg (x.f.getLsbD 5))
  | 0x04 => x.using 0 0xFF 0 (.decCfg x.d)
  | 0x05 => x.using 0 0xFF 0 (.decStatus x.d)
  | 0x06 => x.using 0x03 0 0 (.encAlert (x.f.getLsbD 0) x.alertMode)
  | 0x07 => x.using 0 0xFF 0 (.decAlert x.d)
  | 0x08 => x.using 0 0 0xFFFF (.decRaw x.imm0 (x.imm.extractLsb' 8 8))
  | 0x09 => x.using 0 0 0xFFFF (.rawToC (x.imm.extractLsb' 0 16))
  | 0x0A => x.using 0 0 0xFFFFFFFF (.cToRaw x.imm)
  | 0x0B => x.using 0 0xFF 0xFF (.crc8Upd x.imm0 x.d)
  | 0x10 => x.using 0x3F 0 0 (.configure x.rate x.avg (x.f.getLsbD 5))
  | 0x11 => x.using 0x07 0 0 (.setMode x.mode (x.f.getLsbD 2))
  | 0x12 => x.using 0x03 0 0 (.readTemp (x.f.getLsbD 0) (x.f.getLsbD 1))
  | 0x13 => x.using 0 0 0 .singleShot
  | 0x14 => x.using 0 0 0 .readStatus
  | 0x15 => x.using 0 0 0 .isBusy
  | 0x16 => x.using 0 0 0 .heaterOn
  | 0x17 => x.using 0 0 0 .heaterOff
  | 0x18 => x.using 0x03 0 0 (.setAlertMode (x.f.getLsbD 0) x.alertMode)
  | 0x19 => x.using 0 0 0 .getAlertMode
  | 0x1A => x.using 0 0 0xFFFFFFFF (.setHighLimit x.imm)
  | 0x1B => x.using 0 0 0xFFFFFFFF (.setLowLimit x.imm)
  | 0x1C => x.using 0 0 0 .getHighLimit
  | 0x1D => x.using 0 0 0 .getLowLimit
  | 0x1E => x.using 0 0 0 .readDeviceId
  | 0x1F => x.using 0 0 0 .readRomCode
  | 0x20 => x.using 0 0xFF 0 (.readUserReg x.d)
  | 0x21 => x.using 0 0xFF 0xFF (.writeUserReg x.d x.imm0)
  | 0x22 => x.using 0 0 0 .readScratch
  | 0x23 => x.using 0 0 0 .readScratchExt
  | 0x24 => x.using 0x01 0 0 (.setParasitic (x.f.getLsbD 0))
  | 0x25 => x.using 0 0 0 .lastError
  | 0x30 => x.using 0x01 0 0xFFFFFFFF (.eeCopyPage (x.f.getLsbD 0) x.imm)
  | 0x31 => x.using 0x01 0 0xFFFFFFFF (.eeRecallPage (x.f.getLsbD 0) x.imm)
  | 0x32 => x.using 0x01 0 0xFFFFFFFF (.eeFullRecall (x.f.getLsbD 0) x.imm)
  | 0x33 => x.using 0x01 0 0xFFFFFFFF (.eeSoftReset (x.f.getLsbD 0) x.imm)
  | 0x34 => x.using 0 0 0xFFFFFFFF (.waitConversion x.imm)
  | 0x35 => x.using 0 0 0xFFFFFFFF (.waitEeprom x.imm)
  | _ => none

/-- The decoder (30_encoding.md R83): a request, or nothing for an illegal word. -/
def decode (w : Word64) : Option Instr := (RequestFields.ofWord w).decode

/-- The host's view of the decoder: the first `nbits` bits of the word `w`, every bit above them 0. A request is one
64-bit word (30_encoding.md R99), so no longer instruction exists. -/
def decodeTableWord (nbits w : Nat) : Option Instr :=
  if nbits ≤ 64 then decode (BitVec.ofNat 64 (w % 2 ^ nbits)) else none

/-- `F` of ENC_CMD and SET_MODE: mode in F[1:0], heater in F[2] (30_encoding.md R98). -/
def modeField (mode : Mode) (heater : Bool) : Byte := 0#5 ++ (BitVec.ofBool heater ++ mode.code)

/-- `F` of ENC_CFG and CONFIGURE: rate in F[2:0], avg in F[4:3], sleep in F[5] (30_encoding.md R98). -/
def configField (rate : Rate) (avg : Avg) (sleep : Bool) : Byte :=
  0#2 ++ (BitVec.ofBool sleep ++ (avg.code ++ rate.code))

/-- Two flags in F[0] and F[1], the first named first (30_encoding.md R98). -/
def twoFlags (flag0 flag1 : Bool) : Byte := 0#6 ++ (BitVec.ofBool flag1 ++ BitVec.ofBool flag0)

/-- `F` of an alert request: enabled in F[0], mode in F[1] (30_encoding.md R98). -/
def alertField (enabled : Bool) (mode : AlertMode) : Byte := twoFlags enabled mode.bit

/-- A byte in IMM[7:0], the rest of `IMM` 0 (30_encoding.md R80, R82). -/
def zeroExtend8 (b : Byte) : Word32 := 0#24 ++ b

/-- A 16-bit word in IMM[15:0], the rest of `IMM` 0 (30_encoding.md R80, R82). -/
def zeroExtend16 (w : Word16) : Word32 := 0#16 ++ w

/-- The fields of a request, in the order OPC, F, D, RSV, IMM (30_encoding.md R98). -/
def Instr.fields : Instr → RequestFields
  | .encCmd mode heater => ⟨0x01, (modeField mode heater), 0, 0, 0⟩
  | .decCmd byte => ⟨0x02, 0, byte, 0, 0⟩
  | .encCfg rate avg sleep => ⟨0x03, (configField rate avg sleep), 0, 0, 0⟩
  | .decCfg byte => ⟨0x04, 0, byte, 0, 0⟩
  | .decStatus byte => ⟨0x05, 0, byte, 0, 0⟩
  | .encAlert enabled mode => ⟨0x06, (alertField enabled mode), 0, 0, 0⟩
  | .decAlert byte => ⟨0x07, 0, byte, 0, 0⟩
  | .decRaw lsb msb => ⟨0x08, 0, 0, 0, (zeroExtend16 (msb ++ lsb))⟩
  | .rawToC raw => ⟨0x09, 0, 0, 0, (zeroExtend16 raw)⟩
  | .cToRaw c => ⟨0x0A, 0, 0, 0, c⟩
  | .crc8Upd acc byte => ⟨0x0B, 0, byte, 0, (zeroExtend8 acc)⟩
  | .configure rate avg sleep => ⟨0x10, (configField rate avg sleep), 0, 0, 0⟩
  | .setMode mode heater => ⟨0x11, (modeField mode heater), 0, 0, 0⟩
  | .readTemp wait verify => ⟨0x12, (twoFlags wait verify), 0, 0, 0⟩
  | .singleShot => ⟨0x13, 0, 0, 0, 0⟩
  | .readStatus => ⟨0x14, 0, 0, 0, 0⟩
  | .isBusy => ⟨0x15, 0, 0, 0, 0⟩
  | .heaterOn => ⟨0x16, 0, 0, 0, 0⟩
  | .heaterOff => ⟨0x17, 0, 0, 0, 0⟩
  | .setAlertMode enabled mode => ⟨0x18, (alertField enabled mode), 0, 0, 0⟩
  | .getAlertMode => ⟨0x19, 0, 0, 0, 0⟩
  | .setHighLimit c => ⟨0x1A, 0, 0, 0, c⟩
  | .setLowLimit c => ⟨0x1B, 0, 0, 0, c⟩
  | .getHighLimit => ⟨0x1C, 0, 0, 0, 0⟩
  | .getLowLimit => ⟨0x1D, 0, 0, 0, 0⟩
  | .readDeviceId => ⟨0x1E, 0, 0, 0, 0⟩
  | .readRomCode => ⟨0x1F, 0, 0, 0, 0⟩
  | .readUserReg index => ⟨0x20, 0, index, 0, 0⟩
  | .writeUserReg index value => ⟨0x21, 0, index, 0, (zeroExtend8 value)⟩
  | .readScratch => ⟨0x22, 0, 0, 0, 0⟩
  | .readScratchExt => ⟨0x23, 0, 0, 0, 0⟩
  | .setParasitic enabled => ⟨0x24, (twoFlags enabled false), 0, 0, 0⟩
  | .lastError => ⟨0x25, 0, 0, 0, 0⟩
  | .eeCopyPage wait timeout => ⟨0x30, (twoFlags wait false), 0, 0, timeout⟩
  | .eeRecallPage wait timeout => ⟨0x31, (twoFlags wait false), 0, 0, timeout⟩
  | .eeFullRecall wait timeout => ⟨0x32, (twoFlags wait false), 0, 0, timeout⟩
  | .eeSoftReset wait timeout => ⟨0x33, (twoFlags wait false), 0, 0, timeout⟩
  | .waitConversion timeout => ⟨0x34, 0, 0, 0, timeout⟩
  | .waitEeprom timeout => ⟨0x35, 0, 0, 0, timeout⟩

/-- The encoder: the word of a request (30_encoding.md R80, R98), every unused bit 0. -/
def encode (i : Instr) : Word64 := i.fields.toWord

/-- The operation code of a request (30_encoding.md R98). -/
def Instr.opcode (i : Instr) : Byte := i.fields.opc

end Sys2Proof
end

