-- ==== Sys2Proof/Machine/State.lean ====
section
/-! DEFINITION. The state of the block as plain data (10_state.md R20 to R31), its reset value
(70_reset_and_hazards.md R250), and the reasons for which a step of the model can stop. The device register file is
XDEV's and no part of it (10_state.md R33). -/

namespace Sys2Proof.Machine

/-- The status codes (60_exceptions.md R220). `ok` is also LAST_ERROR's NONE. -/
inductive Status where
  | ok | transportFailure | incompleteRead | parameterError | timeout | integrityFailure
  deriving DecidableEq, Repr, Inhabited

/-- The `chk` field of a response (30_encoding.md R84). -/
inductive Chk where
  | notChecked | matched | mismatch
  deriving DecidableEq, Repr, Inhabited

/-- A response record (30_encoding.md R84). The field `len` is the length of `data`. An unset field is 0 (R85). -/
structure Response where
  status : Status := .ok
  chk : Chk := .notChecked
  valid : Bool := false
  value : Word32 := 0
  data : List Byte := []
  deriving DecidableEq, Repr, Inhabited

/-- The answer to a `MemRead` (00_scope.md R10): `FAIL`, or the bytes, the lowest address first. -/
inductive ReadAnswer where
  | fail
  | bytes (s : List Byte)
  deriving DecidableEq, Repr

/-- What the environment will answer (00_scope.md R5, R10): XDEV to a read or a write, CLK to `Now` and `Sleep`.
These are the draws of the model (log 2). -/
inductive Answer where
  | read (a : ReadAnswer)
  | written (ok : Bool)
  | time (t : Nat)
  | slept
  deriving DecidableEq, Repr

/-- A performed primitive with its arguments and its answer: one entry of the trace (00_scope.md R6, R10). -/
inductive Event where
  | memRead (addr : Byte) (n : Nat) (answer : ReadAnswer)
  | memWrite (addr : Byte) (bytes : List Byte) (ok : Bool)
  | now (t : Nat)
  | sleep (d : Nat)
  deriving DecidableEq, Repr

/-- CFG_MIRROR (10_state.md R20, R21). -/
structure CfgMirror where
  valid : Bool
  rate : BitVec 3
  avg : BitVec 2
  sleep : Bool
  deriving DecidableEq, Repr

/-- MODE_MIRROR (10_state.md R20, R23). -/
structure ModeMirror where
  valid : Bool
  mode : BitVec 2
  deriving DecidableEq, Repr

/-- WAIT.state (10_state.md R28). -/
inductive WaitState where
  | polling | ready | timedOut | transportError
  deriving DecidableEq, Repr

/-- WAIT.bitpos (10_state.md R28): the busy bit a wait watches. -/
inductive WaitBit where
  | conversion | eeprom
  deriving DecidableEq, Repr

/-- WAIT (10_state.md R28). -/
structure Wait where
  state : WaitState
  start : Nat
  timeout : Word32
  bit : WaitBit
  deriving DecidableEq, Repr

/-- EE_STATE (10_state.md R29). -/
inductive EeState where
  | idle | cmdSent | polling | done
  deriving DecidableEq, Repr

/-- The position in an operation's pseudocode: the next primitive, with the operation's local values (10_state.md
R27). The operands are locals too; they stand in the request itself. -/
inductive Pos where
  /-- the request has been accepted and nothing of it has been performed -/
  | start
  /-- SINGLE_SHOT: the trigger write is done, the guard delay is next (41_session.md R147) -/
  | triggered
  /-- READ_TEMP, SINGLE_SHOT: the guard delay is done, the read is next (41_session.md R146, R147) -/
  | delayed
  /-- HEATER_ON, HEATER_OFF: COMMAND was read as `b`, the write is next (41_session.md R150, R151) -/
  | commandRead (b : Byte)
  /-- a wait inside an EEPROM request: its first `Now()` is next (42_wait_eeprom.md R190) -/
  | waitEnter
  /-- a wait: the status read is next -/
  | waitPoll
  /-- a wait: the bit was set, the iteration's `Now()` is next -/
  | waitClock
  /-- a wait: the timeout has not passed, the sleep is next -/
  | waitPause
  /-- every primitive is performed and `r` is the response to emit -/
  | respond (r : Response)
  deriving DecidableEq, Repr

/-- SEQ_PHASE (10_state.md R27): IDLE, or RUN of an operation at a position. `runIllegal op` is RUN of an accepted
illegal word, whose `OPC` field is `op` and which performs no primitive (30_encoding.md R83; log 21). -/
inductive Phase where
  | idle
  | run (i : Instr) (pos : Pos)
  | runIllegal (op : Byte)
  deriving DecidableEq, Repr

/-- The state of the machine: the block's registers (10_state.md R20), the sequencer (R27 to R29), the response port
(R31), and the environment's inputs and the trace as the model's own fields (log 2, log 3, log 13). -/
structure State where
  /-- the open parameters of this machine (00_scope.md R7); no step writes them (log 8) -/
  params : Params
  /-- BUS_ADDR (10_state.md R25) -/
  busAddr : BusAddr
  /-- CFG_MIRROR (10_state.md R21) -/
  cfg : CfgMirror
  /-- MODE_MIRROR (10_state.md R23) -/
  mode : ModeMirror
  /-- LAST_ERROR (10_state.md R24), as the status whose code it holds -/
  lastError : Status
  /-- SEQ_PHASE (10_state.md R27) -/
  phase : Phase
  /-- WAIT (10_state.md R28), absent outside a wait -/
  wait : Option Wait
  /-- EE_STATE (10_state.md R29) -/
  ee : EeState
  /-- RSP_VALID (10_state.md R31) -/
  rspValid : Bool
  /-- the response record at the response port (10_state.md R31) -/
  rsp : Response
  /-- the requests HOST will present, the first at the request port (10_state.md R31; log 3) -/
  requests : List Word64
  /-- the answers XDEV and CLK will give, in order (00_scope.md R5; log 2) -/
  answers : List Answer
  /-- the primitives of the request accepted last, oldest first (00_scope.md R6; log 13) -/
  trace : List Event
  deriving DecidableEq, Repr

/-- Why a step of the model faults. None is a fault of the block, which never traps (60_exceptions.md R221). Each is
safe: the model stops where the spec admits no such input or no run reaches. -/
inductive Fault where
  /-- Raised by `MemRead`: the environment's list answers with more bytes than were asked for. The spec excludes such
  an answer (20_memory.md R61; 93_implementation_defined.md I13). Safe (log 5). -/
  | overlongAnswer
  /-- Raised by every primitive: the head of the environment's list answers another kind of primitive. No environment
  gives such an answer (00_scope.md R10). Safe (log 5). -/
  | answerOutOfTurn
  /-- Raised by a meaning at a position its pseudocode does not have. No run from reset reaches it. Safe (log 5). -/
  | strayPosition
  deriving DecidableEq, Repr

/-- Why the model gives a step no meaning. -/
inductive Refusal where
  /-- Raised by an arm of `exec` whose instruction has no meaning yet. Safe. No arm raises it in this model. -/
  | notModelled (mnemonic : String)
  /-- Raised by a meaning asked for a request while another request runs. HOST must not present one then and the spec
  defines nothing for it (70_reset_and_hazards.md R262; 93_implementation_defined.md I16). `step` never asks for it.
  Safe (log 12). -/
  | requestWhileRunning
  deriving DecidableEq, Repr

/-- What one step answers. -/
abbrev Result := Host.Outcome State Fault Refusal

/-- The machine right after reset (70_reset_and_hazards.md R250). The response record's fields (log 7), the two lists
of the environment's inputs (log 2, log 3) and the trace (log 13) are DESIGN CHOICE; the open parameters have no known
value (log 8). -/
def State.reset : State where
  params := Config.params
  busAddr := Config.params.busAddr
  cfg := ⟨false, 0, 0, false⟩
  mode := ⟨false, 0⟩
  lastError := .ok
  phase := .idle
  wait := none
  ee := .idle
  rspValid := false
  rsp := {}
  requests := []
  answers := []
  trace := []

end Sys2Proof.Machine
end

