-- ==== Sys2Proof/Machine/RegisterMap.lean ====
section
/-! DEFINITION. The device register map, the wire contract of the block (10_state.md R33 to R48): addresses only. The
contents are XDEV's (R33, R49). -/

namespace Sys2Proof.Machine

/-- 0x00 TEMP_LSB, the first byte of every temperature read (10_state.md R34). -/
def Addr.tempLsb : Byte := 0x00
/-- 0x01 TEMP_MSB (10_state.md R34). -/
def Addr.tempMsb : Byte := 0x01
/-- 0x02 TEMP_CRC (10_state.md R35). -/
def Addr.tempCrc : Byte := 0x02
/-- 0x03 STATUS (10_state.md R36), also the first byte of the scratch block (R41). -/
def Addr.status : Byte := 0x03
/-- 0x04 COMMAND (10_state.md R37). -/
def Addr.command : Byte := 0x04
/-- 0x05 CONFIG (10_state.md R38). -/
def Addr.config : Byte := 0x05
/-- 0x06 ALERT_MODE (10_state.md R39). -/
def Addr.alertMode : Byte := 0x06
/-- 0x07 TH_LSB (10_state.md R40). -/
def Addr.thLsb : Byte := 0x07
/-- 0x08 TH_MSB (10_state.md R40). -/
def Addr.thMsb : Byte := 0x08
/-- 0x09 TL_LSB (10_state.md R40). -/
def Addr.tlLsb : Byte := 0x09
/-- 0x0A TL_MSB (10_state.md R40). -/
def Addr.tlMsb : Byte := 0x0A
/-- 0x0B SCRATCH_CRC (10_state.md R41). -/
def Addr.scratchCrc : Byte := 0x0B
/-- 0x0C USER0, the first of ten user registers and of the extended scratch block (10_state.md R42, R43). -/
def Addr.user0 : Byte := 0x0C
/-- `USERi` is at address `0x0C + i` (10_state.md R42). -/
def Addr.user (index : Byte) : Byte := Addr.user0 + index
/-- 0x16 SCRATCH_EXT_CRC (10_state.md R43). -/
def Addr.scratchExtCrc : Byte := 0x16
/-- 0x17 EE_CMD (10_state.md R44). -/
def Addr.eeCmd : Byte := 0x17
/-- 0x18 DEVICE_ID_LSB (10_state.md R45). -/
def Addr.deviceIdLsb : Byte := 0x18
/-- 0x19 DEVICE_ID_MSB (10_state.md R45). -/
def Addr.deviceIdMsb : Byte := 0x19
/-- 0x1A ROM0, the first of five (10_state.md R46). -/
def Addr.rom0 : Byte := 0x1A
/-- 0x1F ROM_CRC, which the block never accesses (10_state.md R47). -/
def Addr.romCrc : Byte := 0x1F
/-- 0x63 PARASITIC (10_state.md R48). -/
def Addr.parasitic : Byte := 0x63

end Sys2Proof.Machine
end

