-- ==== Sys2Proof/Machine/Operands.lean ====
section
/-! DEFINITION. The forms in which values enter and leave the block: extension to the 32-bit result (92_eei_decisions.md
D30), little-endian pairs (20_memory.md R63), the byte layouts of the registers the block writes and reads (40_codec.md
R111 to R125, R135), and the guard delay's operand (41_session.md R145). -/

namespace Sys2Proof.Machine

/-- `zext_32` of a byte (00_scope.md R9). -/
def zext32 (b : Byte) : Word32 := b.setWidth 32

/-- `zext_32` of a 16-bit word (00_scope.md R9). -/
def zext32of16 (w : Word16) : Word32 := w.setWidth 32

/-- `sext_32` of a 16-bit word (00_scope.md R9). -/
def sext32 (w : Word16) : Word32 := w.signExtend 32

/-- The byte `s[i]` of a sequence (00_scope.md R8). -/
def byteAt (s : List Byte) (i : Nat) : Byte := s.getD i 0

/-- Little-endian combine, `(msb << 8) | lsb` (20_memory.md R63; 40_codec.md R125). -/
def combine16 (lsb msb : Byte) : Word16 := (msb.setWidth 16 <<< 8) ||| lsb.setWidth 16

/-- `decodeRawTemperature`, as the 16-bit two's-complement word of its value (40_codec.md R125). -/
def decodeRawTemperature (lsb msb : Byte) : Word16 := combine16 lsb msb

/-- `encodeRawPair`: the little-endian byte pair of a raw temperature (40_codec.md R135). -/
def encodeRawPair (raw : Word16) : List Byte := [raw.extractLsb' 0 8, raw.extractLsb' 8 8]

/-- A boolean as a byte, 1 for true (00_scope.md R11). -/
def bit8 (b : Bool) : Byte := (BitVec.ofBool b).setWidth 8

/-- The heater nibble on, `0b1010`; also the parasitic-power pattern (30_encoding.md R89). -/
def heaterOnNibble : Byte := 0b1010

/-- `encodeCommand` (40_codec.md R111). -/
def encodeCommand (mode : BitVec 2) (heater : Bool) : Byte :=
  (mode.setWidth 8 <<< 6) ||| (if heater then heaterOnNibble else 0b0000)

/-- `decodeCommand` (40_codec.md R113): bits 5:4 are ignored, only the nibble `0b1010` reads as heater on. -/
def decodeCommand (b : Byte) : BitVec 2 × Bool := (b.extractLsb' 6 2, b.extractLsb' 0 4 == 0b1010)

/-- `encodeConfig` (40_codec.md R115). -/
def encodeConfig (rate : BitVec 3) (avg : BitVec 2) (sleep : Bool) : Byte :=
  (rate.setWidth 8 <<< 5) ||| (avg.setWidth 8 <<< 3) ||| bit8 sleep

/-- `decodeConfig` (40_codec.md R117): bits 2:1 are ignored. -/
def decodeConfig (b : Byte) : BitVec 3 × BitVec 2 × Bool := (b.extractLsb' 5 3, b.extractLsb' 3 2, b.getLsbD 0)

/-- A level if the flag holds, the other level if not (40_codec.md R121: `p` or `1 - p`). -/
def levelFor (flag : Bool) (level : BitVec 1) : BitVec 1 := if flag then level else 1 - level

/-- `encodeAlert` (40_codec.md R121); `mode` true is HighAlarmLowAlarm (30_encoding.md R90). -/
def encodeAlert (p : Params) (enabled mode : Bool) : Byte :=
  ((levelFor enabled p.alertEnLevel).setWidth 8 <<< 7) ||| ((levelFor mode p.alertHalaLevel).setWidth 8 <<< 6)

/-- `decodeAlert` (40_codec.md R123): the flags enabled and mode; bits 5:0 are ignored. -/
def decodeAlert (p : Params) (b : Byte) : Bool × Bool :=
  (b.extractLsb' 7 1 == p.alertEnLevel, b.extractLsb' 6 1 == p.alertHalaLevel)

/-- The result layout of an alert configuration, `e | (m << 1)` (40_codec.md R124; 41_session.md R153). -/
def alertValue (em : Bool × Bool) : Byte := bit8 em.1 ||| (bit8 em.2 <<< 1)

/-- The COMMAND byte HEATER_ON writes: bits 7:4 kept, heater nibble on (41_session.md R150). -/
def heaterOnByte (command : Byte) : Byte := (command &&& 0xF0) ||| heaterOnNibble

/-- The COMMAND byte HEATER_OFF writes: bits 7:4 kept, heater nibble `0b0000` (41_session.md R151). -/
def heaterOffByte (command : Byte) : Byte := command &&& 0xF0

/-- The PARASITIC byte: `0x0A` or `0x00` (41_session.md R164). -/
def parasiticByte (enabled : Bool) : Byte := if enabled then 0x0A else 0x00

/-- The worst-case conversion latency of an averaging code, in ms: `LAT` (41_session.md R145; 30_encoding.md R88). -/
def conversionLatency (avg : BitVec 2) : Nat :=
  match avg.toNat with | 0 => 4 | 1 => 7 | 2 => 10 | _ => 18

/-- The guard delay `latency()`, read from the mirror and not from the device (41_session.md R145). -/
def latency (cfg : CfgMirror) : Nat :=
  if cfg.valid then conversionLatency cfg.avg else Config.latencyUnknownMs

/-- WAIT.bitpos as a bit number: 5 for a conversion wait, 4 for an EEPROM wait (10_state.md R28). -/
def WaitBit.pos : WaitBit → Nat
  | .conversion => 5 | .eeprom => 4

end Sys2Proof.Machine
end

