-- ==== Sys2Proof/Machine/Flags.lean ====
section
/-! DEFINITION. Every flag the block computes: the checksum and its `chk` flag (40_codec.md R131, R132, R134), the six
flags of a status byte (R119), the busy flags (41_session.md R149; 42_wait_eeprom.md R190), the status codes and the
LAST_ERROR classification (60_exceptions.md R220, R222), and the packed response (30_encoding.md R84). -/

namespace Sys2Proof.Machine

/-- One of the eight rounds of `crc8Update`: shift left within 8 bits, and add the polynomial 0x31 if bit 7 was set
(40_codec.md R131). -/
def crcRound (r : Byte) : Byte := if r.getLsbD 7 then (r <<< 1) ^^^ 0x31 else r <<< 1

/-- `n` rounds. -/
def crcRounds : Nat → Byte → Byte
  | 0, r => r
  | n + 1, r => crcRounds n (crcRound r)

/-- `crc8Update` (40_codec.md R131). -/
def crc8Update (acc b : Byte) : Byte := crcRounds 8 (acc ^^^ b)

/-- `crc8` of a byte sequence (40_codec.md R132): from 0x00, no final XOR, no reflection. -/
def crc8 (s : List Byte) : Byte := s.foldl crc8Update 0x00

/-- `verify`: whether the checksum of `s` is `t` (40_codec.md R134). -/
def verify (s : List Byte) (t : Byte) : Chk := if crc8 s = t then .matched else .mismatch

/-- The six flags of STATUS (10_state.md R36). -/
structure StatusSnapshot where
  alertHigh : Bool
  alertLow : Bool
  busy : Bool
  eeBusy : Bool
  heaterOn : Bool
  thMisconf : Bool
  deriving DecidableEq, Repr

/-- `decodeStatus` (40_codec.md R119): bits 1:0 are ignored. -/
def decodeStatus (b : Byte) : StatusSnapshot where
  alertHigh := b.getLsbD 7
  alertLow := b.getLsbD 6
  busy := b.getLsbD 5
  eeBusy := b.getLsbD 4
  heaterOn := b.getLsbD 3
  thMisconf := b.getLsbD 2

/-- How a response carries a snapshot: `b & 0xFC`, each flag at its register bit (40_codec.md R119). -/
def snapshotByte (b : Byte) : Byte := b &&& 0xFC

/-- IS_BUSY's flag: conversion-busy or EEPROM-busy (41_session.md R149). -/
def anyBusy (status : Byte) : Bool := (decodeStatus status).busy || (decodeStatus status).eeBusy

/-- The busy bit a wait watches, in a status byte (42_wait_eeprom.md R190): only bit `bitpos` is tested. -/
def waitBusy (bit : WaitBit) (status : Byte) : Bool := status.getLsbD bit.pos

/-- The value of a scratch read: received checksum in 7:0, computed checksum in 15:8 (41_session.md R162, R163). -/
def scratchValue (received computed : Byte) : Word32 := zext32 received ||| (zext32 computed <<< 8)

/-- The numeric status codes (60_exceptions.md R220). -/
def Status.code : Status → BitVec 3
  | .ok => 0 | .transportFailure => 1 | .incompleteRead => 2 | .parameterError => 3 | .timeout => 4
  | .integrityFailure => 5

/-- The numeric `chk` codes (30_encoding.md R84). -/
def Chk.code : Chk → BitVec 2
  | .notChecked => 0 | .matched => 1 | .mismatch => 2

/-- LAST_ERROR after a response other than a LAST_ERROR request's (60_exceptions.md R222): a failed status is recorded,
a bare read with a bad checksum is recorded as INTEGRITY_FAILURE, any other response leaves it. -/
def Response.classify (r : Response) (before : Status) : Status :=
  if r.status ≠ .ok then r.status else if r.chk = .mismatch then .integrityFailure else before

/-- The field `len` of a response (30_encoding.md R84). -/
def Response.len (r : Response) : BitVec 4 := BitVec.ofNat 4 r.data.length

/-- The packed response (30_encoding.md R84): `status` 2:0, `chk` 4:3, `valid` 5, `len` 11:8, `value` 47:16,
`data[i]` from bit `48 + 8i`. -/
def Response.pack (r : Response) : Word128 :=
  byteAt r.data 9 ++ (byteAt r.data 8 ++ (byteAt r.data 7 ++ (byteAt r.data 6 ++ (byteAt r.data 5 ++
  (byteAt r.data 4 ++ (byteAt r.data 3 ++ (byteAt r.data 2 ++ (byteAt r.data 1 ++ (byteAt r.data 0 ++
  (r.value ++ (0#4 ++ (r.len ++ (0#2 ++ (BitVec.ofBool r.valid ++ (r.chk.code ++ r.status.code)))))))))))))))

end Sys2Proof.Machine
end

