-- ==== Sys2Proof/Machine/Celsius.lean ====
section
/-! DEFINITION. The two Celsius conversions, exact on rationals with one rounding (40_codec.md R127, R129, R137). A
binary32 word is IEEE 754's: sign 31, exponent 30:23, fraction 22:0 (93_implementation_defined.md G1). Rationals are
held as integers over a common power of two: every finite binary32 value is a whole multiple of 2^-149 (log 14). -/

namespace Sys2Proof.Machine

/-- The exponent field of a binary32 word (G1). -/
def f32Exponent (c : Word32) : Nat := (c.extractLsb' 23 8).toNat

/-- The fraction field of a binary32 word (G1). -/
def f32Fraction (c : Word32) : Nat := (c.extractLsb' 0 23).toNat

/-- The sign bit of a binary32 word (G1). -/
def f32Sign (c : Word32) : Bool := c.getLsbD 31

/-- A NaN: exponent all ones, fraction not 0 (G1). -/
def f32IsNaN (c : Word32) : Bool := f32Exponent c == 255 && f32Fraction c != 0

/-- An infinity: exponent all ones, fraction 0 (G1). -/
def f32IsInf (c : Word32) : Bool := f32Exponent c == 255 && f32Fraction c == 0

/-- The magnitude of a finite binary32 word in units of 2^-149: a subnormal is its fraction, a normal of exponent `e`
is `(2^23 + fraction) * 2^(e-1)` (G1). -/
def f32Magnitude (c : Word32) : Nat :=
  if f32Exponent c = 0 then f32Fraction c else (2 ^ 23 + f32Fraction c) * 2 ^ (f32Exponent c - 1)

/-- `exact(c)` in units of 2^-149 (40_codec.md R129): both zeros give 0. -/
def f32Exact (c : Word32) : Int := if f32Sign c then -(f32Magnitude c : Int) else f32Magnitude c

/-- The number of units in 1: `exact(c) = f32Exact c / f32Unit`. -/
def f32Unit : Int := 2 ^ 149

/-- `roundHalfAwayFromZero(x) = sign(x) * floor(|x| + 1/2)` of the rational `x = num / den`, `den > 0` (40_codec.md
R129): `floor(|x| + 1/2)` is `(2|num| + den) / (2 den)`. -/
def roundHalfAwayFromZero (num den : Int) : Int :=
  if num < 0 then -((2 * -num + den) / (2 * den)) else (2 * num + den) / (2 * den)

/-- Saturation to the signed 16-bit range (40_codec.md R129). -/
def saturate16 (r : Int) : Int := min 32767 (max (-32768) r)

/-- `celsiusToRaw` (40_codec.md R129): nothing for a NaN, else the raw temperature as its 16-bit word. -/
def celsiusToRaw (c : Word32) : Option Word16 :=
  if f32IsNaN c then none
  else if f32IsInf c then some (BitVec.ofInt 16 (if f32Sign c then -32768 else 32767))
  else some (BitVec.ofInt 16 (saturate16 (roundHalfAwayFromZero ((f32Exact c - 25 * f32Unit) * 256) f32Unit)))

/-- The binary32 word of `± m / 256` for a natural `m` of at most 24 bits: exact, and +0.0 for 0 (40_codec.md R127).
With `k` the index of the top bit of `m`, the exponent is `127 + k - 8` and the fraction is the rest of `m` moved up
to bit 22. -/
def f32OfUnits256 (negative : Bool) (m : Nat) : Word32 :=
  if m = 0 then 0
  else
    let k := Nat.log2 m
    BitVec.ofBool negative ++ (BitVec.ofNat 8 (119 + k) ++ BitVec.ofNat 23 ((m - 2 ^ k) * 2 ^ (23 - k)))

/-- `f32_bits(rawToCelsius(raw))` (40_codec.md R127): the binary32 word of `(raw + 6400) / 256`. -/
def rawToCelsius (raw : Word16) : Word32 :=
  f32OfUnits256 (raw.toInt + 6400 < 0) (raw.toInt + 6400).natAbs

end Sys2Proof.Machine
end

