-- ==== Sys2Proof/Machine/Ops.lean ====
section
/-! DEFINITION. The named operations of the sequencer: the ports (10_state.md R31), the four primitives (00_scope.md
R10), `raise`, `finish` and the emission of a response with its LAST_ERROR update (60_exceptions.md R220, R222, R226),
the helpers `ReadN` and `WriteN` (41_session.md R141, R142), and one SEQ step of a request (00_scope.md R6; 10_state.md
R27).

The block takes no exception and returns from none (60_exceptions.md R226). `State.raise` is the shared operation that
stands in their place: it saves no state, changes no mode and jumps nowhere; it ends the request with a status. -/

namespace Sys2Proof.Machine

/-- REQ_VALID (10_state.md R31): HOST has a request at the port, and SEQ is IDLE, the only phase in which HOST may
present one (R262; log 3). -/
def State.reqValid (s : State) : Bool := s.phase == .idle && !s.requests.isEmpty

/-- REQ_WORD (10_state.md R31), meaningful while REQ_VALID. -/
def State.reqWord (s : State) : Word64 := s.requests.headD 0

/-- `op` of RUN(op, pos) (10_state.md R27): the operation code of the running request. -/
def Phase.op : Phase → Option Byte
  | .idle => none
  | .run i _ => some i.opcode
  | .runIllegal op => some op

/-- SEQ_PHASE moved to another position of the running operation (10_state.md R27). -/
def Phase.moveTo (p : Phase) (pos : Pos) : Phase :=
  match p with
  | .run i _ => .run i pos
  | other => other

/-- The position of the running operation becomes `pos` (10_state.md R27). -/
def State.moveTo (s : State) (pos : Pos) : State := { s with phase := s.phase.moveTo pos }

/-- `CFG_MIRROR <- m` (10_state.md R22). -/
def State.setCfg (s : State) (m : CfgMirror) : State := { s with cfg := m }

/-- `MODE_MIRROR <- m` (10_state.md R23). -/
def State.setMode (s : State) (m : ModeMirror) : State := { s with mode := m }

/-- `WAIT <- w` (10_state.md R28). -/
def State.setWait (s : State) (w : Wait) : State := { s with wait := some w }

/-- `EE_STATE <- e` (10_state.md R29). -/
def State.setEe (s : State) (e : EeState) : State := { s with ee := e }

/-- SEQ accepts the word at the request port and runs `p` (00_scope.md R6; 10_state.md R27, R31). The response of the
request before leaves the port: DESIGN CHOICE (log 6). The trace starts anew (log 13). -/
def State.accept (s : State) (p : Phase) : State :=
  { s with phase := p, requests := s.requests.tail, rspValid := false, trace := [] }

/-- LAST_ERROR after the running request's response `r` (60_exceptions.md R222): every request but LAST_ERROR updates
it, an illegal word with that opcode included. -/
def Phase.nextLastError (p : Phase) (r : Response) (before : Status) : Status :=
  match p with
  | .run .lastError _ => before
  | _ => r.classify before

/-- SEQ emits the response `r`: it stands at the response port, LAST_ERROR is updated, nothing of WAIT and EE_STATE
survives, and SEQ is IDLE (10_state.md R27 to R29, R31; 60_exceptions.md R221, R222). -/
def State.emit (s : State) (r : Response) : State :=
  { s with
    phase := .idle, wait := none, ee := .idle, rspValid := true, rsp := r,
    lastError := s.phase.nextLastError r s.lastError }

/-- The response of `raise E`: every field the rule has not set is 0 (00_scope.md R10; 30_encoding.md R85). -/
def Response.failed (e : Status) : Response := { status := e }

/-- The response of `finish(valid = 1, value, data, chk)`: status OK (00_scope.md R10; 30_encoding.md R84). -/
def Response.result (value : Word32) (data : List Byte := []) (chk : Chk := .notChecked) : Response :=
  { status := .ok, chk := chk, valid := true, value := value, data := data }

/-- `raise E` after a primitive (00_scope.md R10; 60_exceptions.md R226): no later primitive is performed; what the
request has done so far stays. -/
def State.raise (s : State) (e : Status) : State := s.moveTo (.respond (.failed e))

/-- The request ends with the response `r` after its last primitive (00_scope.md R10). -/
def State.finish (s : State) (r : Response) : State := s.moveTo (.respond r)

/-- The environment's next answer is taken and the primitive recorded (00_scope.md R6, R10; log 2, log 13). -/
def State.answered (s : State) (rest : List Answer) (e : Event) : State :=
  { s with answers := rest, trace := s.trace ++ [e] }

/-- A read answer within the transfer contract: at most `n` bytes (20_memory.md R61). -/
def ReadAnswer.fits (n : Nat) : ReadAnswer → Bool
  | .fail => true
  | .bytes s => s.length ≤ n

/-- `MemRead(addr, n)` (00_scope.md R10; 20_memory.md R61), then the computation `k` on its answer. While XDEV has not
answered, SEQ has no step and the state stays (R61; log 4). -/
def memRead (addr : Byte) (n : Nat) (k : ReadAnswer → State → State) (s : State) : Result :=
  match s.answers with
  | [] => .next s
  | .read a :: rest =>
    if a.fits n then .next (k a (s.answered rest (.memRead addr n a))) else .fault .overlongAnswer
  | _ :: _ => .fault .answerOutOfTurn

/-- `MemWrite(addr, n, bytes)` with `n` the length of `bytes` (00_scope.md R10; 20_memory.md R61), then `k` on its
answer, `true` for OK. -/
def memWrite (addr : Byte) (bytes : List Byte) (k : Bool → State → State) (s : State) : Result :=
  match s.answers with
  | [] => .next s
  | .written ok :: rest => .next (k ok (s.answered rest (.memWrite addr bytes ok)))
  | _ :: _ => .fault .answerOutOfTurn

/-- `Now()` (00_scope.md R10), then `k` on the reading. -/
def now (k : Nat → State → State) (s : State) : Result :=
  match s.answers with
  | [] => .next s
  | .time t :: rest => .next (k t (s.answered rest (.now t)))
  | _ :: _ => .fault .answerOutOfTurn

/-- `Sleep(d)` (00_scope.md R10), then `k`. -/
def sleep (d : Nat) (k : State → State) (s : State) : Result :=
  match s.answers with
  | [] => .next s
  | .slept :: rest => .next (k (s.answered rest (.sleep d)))
  | _ :: _ => .fault .answerOutOfTurn

/-- What `ReadN` makes of a read answer (41_session.md R141): a failed read raises TRANSPORT_FAILURE, a short one
INCOMPLETE_READ with no partial data, and `k` goes on with exactly `n` bytes. -/
def afterReadN (n : Nat) (k : List Byte → State → State) : ReadAnswer → State → State
  | .fail, t => t.raise .transportFailure
  | .bytes bs, t => if bs.length < n then t.raise .incompleteRead else k bs t

/-- `ReadN(addr, n)` (41_session.md R141), one transfer (20_memory.md R66). -/
def readN (addr : Byte) (n : Nat) (k : List Byte → State → State) (s : State) : Result :=
  memRead addr n (afterReadN n k) s

/-- What `WriteN` makes of a write answer (41_session.md R142). -/
def afterWriteN (k : State → State) (ok : Bool) (t : State) : State :=
  if ok then k t else t.raise .transportFailure

/-- `WriteN(addr, bytes)` (41_session.md R142), one transfer (20_memory.md R66). -/
def writeN (addr : Byte) (bytes : List Byte) (k : State → State) (s : State) : Result :=
  memWrite addr bytes (afterWriteN k) s

/-- One SEQ step of the request `i` (00_scope.md R6; 10_state.md R27; log 1). In IDLE, SEQ accepts it. Running it, SEQ
emits its response when that is due, and else performs the next primitive, `body` at the position. A request asked for
while another runs is not accepted (R262; log 12). -/
def perform (i : Instr) (body : Pos → State → Result) (s : State) : Result :=
  match s.phase with
  | .idle => .next (s.accept (.run i .start))
  | .run j pos =>
    if j = i then
      match pos with
      | .respond r => .next (s.emit r)
      | other => body other s
    else .refused .requestWhileRunning
  | .runIllegal _ => .refused .requestWhileRunning

/-- The pseudocode of a request with at most one primitive: all of it stands at the start. -/
def atStart (first : State → Result) : Pos → State → Result
  | .start, s => first s
  | _, _ => .fault .strayPosition

/-- A request that performs no primitive and answers `r` at once (40_codec.md R110; 60_exceptions.md R223, steps 1
and 2). -/
def respondNow (r : Response) (s : State) : Result := .next (s.emit r)

/-- The response to an illegal word (30_encoding.md R83): PARAMETER_ERROR, every other field 0. -/
def illegalResponse : Response := .failed .parameterError

/-- SEQ accepts an illegal word (30_encoding.md R83): it will perform no primitive. -/
def State.acceptIllegal (s : State) (w : Word64) : State := s.accept (.runIllegal (RequestFields.ofWord w).opc)

/-- Reset of a block with the parameters `s` has (70_reset_and_hazards.md R250, R251): it performs no primitive, and
the environment's inputs are not the block's (log 18). -/
def State.blockReset (s : State) : State :=
  { State.reset with
    params := s.params, busAddr := s.params.busAddr, requests := s.requests, answers := s.answers }

end Sys2Proof.Machine
end

