-- ==== Sys2Proof/Machine/Codec.lean ====
section
/-! DEFINITION. The meanings of the codec requests 0x01 to 0x0B (40_codec.md R110 to R137). Each performs no
primitive: it is accepted, and its next step emits its response (R110). -/

namespace Sys2Proof.Machine

/-- ENC_CMD (40_codec.md R112). -/
def execEncCmd (mode : Mode) (heater : Bool) (s : State) : Result :=
  perform (.encCmd mode heater) (atStart (respondNow (.result (zext32 (encodeCommand mode.code heater))))) s

/-- The result of DEC_CMD, `m | (h << 2)` (40_codec.md R114). -/
def decCmdValue (b : Byte) : Byte := (decodeCommand b).1.setWidth 8 ||| (bit8 (decodeCommand b).2 <<< 2)

/-- DEC_CMD (40_codec.md R114). -/
def execDecCmd (byte : Byte) (s : State) : Result :=
  perform (.decCmd byte) (atStart (respondNow (.result (zext32 (decCmdValue byte))))) s

/-- ENC_CFG (40_codec.md R116). -/
def execEncCfg (rate : Rate) (avg : Avg) (slp : Bool) (s : State) : Result :=
  perform (.encCfg rate avg slp) (atStart (respondNow (.result (zext32 (encodeConfig rate.code avg.code slp))))) s

/-- The result of DEC_CFG, `r | (a << 3) | (s << 5)` (40_codec.md R118). -/
def decCfgValue (b : Byte) : Byte :=
  (decodeConfig b).1.setWidth 8 ||| ((decodeConfig b).2.1.setWidth 8 <<< 3) ||| (bit8 (decodeConfig b).2.2 <<< 5)

/-- DEC_CFG (40_codec.md R118). -/
def execDecCfg (byte : Byte) (s : State) : Result :=
  perform (.decCfg byte) (atStart (respondNow (.result (zext32 (decCfgValue byte))))) s

/-- DEC_STATUS (40_codec.md R120). -/
def execDecStatus (byte : Byte) (s : State) : Result :=
  perform (.decStatus byte) (atStart (respondNow (.result (zext32 (snapshotByte byte))))) s

/-- ENC_ALERT (40_codec.md R122). -/
def execEncAlert (enabled : Bool) (mode : AlertMode) (s : State) : Result :=
  perform (.encAlert enabled mode)
    (atStart (respondNow (.result (zext32 (encodeAlert s.params enabled mode.bit))))) s

/-- DEC_ALERT (40_codec.md R124). -/
def execDecAlert (byte : Byte) (s : State) : Result :=
  perform (.decAlert byte) (atStart (respondNow (.result (zext32 (alertValue (decodeAlert s.params byte)))))) s

/-- DEC_RAW (40_codec.md R126). -/
def execDecRaw (lsb msb : Byte) (s : State) : Result :=
  perform (.decRaw lsb msb) (atStart (respondNow (.result (sext32 (decodeRawTemperature lsb msb))))) s

/-- RAW_TO_C (40_codec.md R128). -/
def execRawToC (raw : Word16) (s : State) : Result :=
  perform (.rawToC raw) (atStart (respondNow (.result (rawToCelsius raw)))) s

/-- The response of C_TO_RAW: PARAMETER_ERROR for a NaN, else the raw temperature sign-extended (40_codec.md R130). -/
def cToRawResponse (c : Word32) : Response :=
  match celsiusToRaw c with
  | none => .failed .parameterError
  | some raw => .result (sext32 raw)

/-- C_TO_RAW (40_codec.md R130). -/
def execCToRaw (c : Word32) (s : State) : Result :=
  perform (.cToRaw c) (atStart (respondNow (cToRawResponse c))) s

/-- CRC8_UPD (40_codec.md R133). -/
def execCrc8Upd (acc byte : Byte) (s : State) : Result :=
  perform (.crc8Upd acc byte) (atStart (respondNow (.result (zext32 (crc8Update acc byte))))) s

end Sys2Proof.Machine
end

