-- ==== Sys2Proof/Machine/Session.lean ====
section
/-! DEFINITION. The meanings of the session requests 0x10 to 0x25 (41_session.md R140 to R165). -/

namespace Sys2Proof.Machine

/-- The last lines of CONFIGURE: the mirror is written only after the write answered OK (41_session.md R143). -/
def configureDone (rate : BitVec 3) (avg : BitVec 2) (slp : Bool) (t : State) : State :=
  (t.setCfg ⟨true, rate, avg, slp⟩).finish (.result (zext32 (encodeConfig rate avg slp)))

/-- CONFIGURE (41_session.md R143). -/
def execConfigure (rate : Rate) (avg : Avg) (slp : Bool) (s : State) : Result :=
  perform (.configure rate avg slp)
    (atStart (writeN Addr.config [encodeConfig rate.code avg.code slp] (configureDone rate.code avg.code slp))) s

/-- The last lines of SET_MODE (41_session.md R144). -/
def setModeDone (mode : BitVec 2) (heater : Bool) (t : State) : State :=
  (t.setMode ⟨true, mode⟩).finish (.result (zext32 (encodeCommand mode heater)))

/-- SET_MODE (41_session.md R144), TRIGGER_SINGLE included (30_encoding.md R101). -/
def execSetMode (mode : Mode) (heater : Bool) (s : State) : Result :=
  perform (.setMode mode heater)
    (atStart (writeN Addr.command [encodeCommand mode.code heater] (setModeDone mode.code heater))) s

/-- The `k` of READ_TEMP: checked only with `verify = 1` (41_session.md R146). -/
def tempChk (checked : Bool) (bs : List Byte) : Chk :=
  if checked then verify [byteAt bs 0, byteAt bs 1] (byteAt bs 2) else .notChecked

/-- The binary32 Celsius value of a little-endian temperature pair (41_session.md R146, R156). -/
def pairCelsius (bs : List Byte) : Word32 := rawToCelsius (decodeRawTemperature (byteAt bs 0) (byteAt bs 1))

/-- The response of READ_TEMP: a mismatch is a flag, not a failure (41_session.md R146; 90_conflicts.md C1). -/
def readTempResponse (checked : Bool) (bs : List Byte) : Response :=
  .result (pairCelsius bs) [byteAt bs 0, byteAt bs 1] (tempChk checked bs)

/-- The one transfer of READ_TEMP (41_session.md R146). -/
def readTempTransfer (checked : Bool) (s : State) : Result :=
  readN Addr.tempLsb (if checked then 3 else 2) (fun bs t => t.finish (readTempResponse checked bs)) s

/-- The pseudocode of READ_TEMP (41_session.md R146). -/
def readTempBody (wait checked : Bool) : Pos → State → Result
  | .start, s => if wait then sleep (latency s.cfg) (·.moveTo .delayed) s else readTempTransfer checked s
  | .delayed, s => readTempTransfer checked s
  | _, _ => .fault .strayPosition

/-- READ_TEMP (41_session.md R146). -/
def execReadTemp (wait verify : Bool) (s : State) : Result :=
  perform (.readTemp wait verify) (readTempBody wait verify) s

/-- The response of SINGLE_SHOT: a mismatch is the hard error INTEGRITY_FAILURE, with `chk = MISMATCH` and no value
(41_session.md R147). -/
def singleShotResponse (bs : List Byte) : Response :=
  if verify [byteAt bs 0, byteAt bs 1] (byteAt bs 2) = .mismatch then
    { status := .integrityFailure, chk := .mismatch }
  else .result (pairCelsius bs) [byteAt bs 0, byteAt bs 1] .matched

/-- The pseudocode of SINGLE_SHOT: trigger with heater off, guard delay, verified read (41_session.md R147). -/
def singleShotBody : Pos → State → Result
  | .start, s =>
    writeN Addr.command [encodeCommand Mode.singleShot.code false]
      (fun t => (t.setMode ⟨true, Mode.singleShot.code⟩).moveTo .triggered) s
  | .triggered, s => sleep (latency s.cfg) (·.moveTo .delayed) s
  | .delayed, s => readN Addr.tempLsb 3 (fun bs t => t.finish (singleShotResponse bs)) s
  | _, _ => .fault .strayPosition

/-- SINGLE_SHOT (41_session.md R147). -/
def execSingleShot (s : State) : Result := perform .singleShot singleShotBody s

/-- READ_STATUS (41_session.md R148). -/
def execReadStatus (s : State) : Result :=
  perform .readStatus
    (atStart (readN Addr.status 1
      (fun bs t => t.finish (.result (zext32 (snapshotByte (byteAt bs 0))) [byteAt bs 0])))) s

/-- The response of IS_BUSY when its read fails: the status of the failure, and still `valid = 1`, busy
(41_session.md R149). -/
def busyOnFailure (e : Status) : Response := { status := e, valid := true, value := 1 }

/-- The response of IS_BUSY (41_session.md R149). -/
def isBusyResponse : ReadAnswer → Response
  | .fail => busyOnFailure .transportFailure
  | .bytes bs =>
    if bs.length < 1 then busyOnFailure .incompleteRead
    else .result (zext32 (bit8 (anyBusy (byteAt bs 0)))) [byteAt bs 0]

/-- IS_BUSY (41_session.md R149). -/
def execIsBusy (s : State) : Result :=
  perform .isBusy (atStart (memRead Addr.status 1 (fun a t => t.finish (isBusyResponse a)))) s

/-- The read-modify-write of COMMAND, two transfers, not atomic (41_session.md R150, R151; 20_memory.md R67): `f` is
the byte written for the byte read. -/
def heaterBody (f : Byte → Byte) : Pos → State → Result
  | .start, s => readN Addr.command 1 (fun bs t => t.moveTo (.commandRead (byteAt bs 0))) s
  | .commandRead b, s => writeN Addr.command [f b] (fun t => t.finish (.result (zext32 (f b)))) s
  | _, _ => .fault .strayPosition

/-- HEATER_ON (41_session.md R150). -/
def execHeaterOn (s : State) : Result := perform .heaterOn (heaterBody heaterOnByte) s

/-- HEATER_OFF (41_session.md R151). -/
def execHeaterOff (s : State) : Result := perform .heaterOff (heaterBody heaterOffByte) s

/-- A one-byte write whose byte is the result (41_session.md R152, R161, R164). -/
def writeByte (addr b : Byte) (s : State) : Result :=
  writeN addr [b] (fun t => t.finish (.result (zext32 b))) s

/-- SET_ALERT_MODE, a plain write (41_session.md R152). -/
def execSetAlertMode (enabled : Bool) (mode : AlertMode) (s : State) : Result :=
  perform (.setAlertMode enabled mode)
    (atStart (writeByte Addr.alertMode (encodeAlert s.params enabled mode.bit))) s

/-- GET_ALERT_MODE (41_session.md R153). -/
def execGetAlertMode (s : State) : Result :=
  perform .getAlertMode
    (atStart (readN Addr.alertMode 1
      (fun bs t => t.finish (.result (zext32 (alertValue (decodeAlert s.params (byteAt bs 0)))) [byteAt bs 0])))) s

/-- The pseudocode of a threshold write (41_session.md R154): a NaN raises PARAMETER_ERROR with no transfer, else one
2-byte transfer at `addr`, LSB first. -/
def setLimit (addr : Byte) (c : Word32) (s : State) : Result :=
  match celsiusToRaw c with
  | none => respondNow (.failed .parameterError) s
  | some raw => writeN addr (encodeRawPair raw) (fun t => t.finish (.result (sext32 raw))) s

/-- SET_HIGH_LIMIT (41_session.md R154). -/
def execSetHighLimit (c : Word32) (s : State) : Result :=
  perform (.setHighLimit c) (atStart (setLimit Addr.thLsb c)) s

/-- SET_LOW_LIMIT (41_session.md R155). -/
def execSetLowLimit (c : Word32) (s : State) : Result :=
  perform (.setLowLimit c) (atStart (setLimit Addr.tlLsb c)) s

/-- The pseudocode of a threshold read (41_session.md R156): one 2-byte transfer at `addr`. -/
def getLimit (addr : Byte) (s : State) : Result :=
  readN addr 2 (fun bs t => t.finish (.result (pairCelsius bs) [byteAt bs 0, byteAt bs 1])) s

/-- GET_HIGH_LIMIT (41_session.md R156). -/
def execGetHighLimit (s : State) : Result := perform .getHighLimit (atStart (getLimit Addr.thLsb)) s

/-- GET_LOW_LIMIT (41_session.md R157). -/
def execGetLowLimit (s : State) : Result := perform .getLowLimit (atStart (getLimit Addr.tlLsb)) s

/-- READ_DEVICE_ID: unsigned, little-endian (41_session.md R158). -/
def execReadDeviceId (s : State) : Result :=
  perform .readDeviceId
    (atStart (readN Addr.deviceIdLsb 2
      (fun bs t =>
        t.finish (.result (zext32of16 (combine16 (byteAt bs 0) (byteAt bs 1))) [byteAt bs 0, byteAt bs 1])))) s

/-- READ_ROM_CODE: five bytes in address order, `value = 0`; ROM_CRC is not read (41_session.md R159; 20_memory.md R62's remark: log 15). -/
def execReadRomCode (s : State) : Result :=
  perform .readRomCode (atStart (readN Addr.rom0 5 (fun bs t => t.finish (.result 0 bs)))) s

/-- A user-register index in range, 0 to 9 (41_session.md R160, R161). -/
def userIndexOk (index : Byte) : Bool := index.toNat ≤ 9

/-- READ_USER_REG: an index above 9 is PARAMETER_ERROR with no transfer (41_session.md R160). -/
def execReadUserReg (index : Byte) (s : State) : Result :=
  perform (.readUserReg index)
    (atStart (if userIndexOk index then
        readN (Addr.user index) 1 (fun bs t => t.finish (.result (zext32 (byteAt bs 0)) [byteAt bs 0]))
      else respondNow (.failed .parameterError))) s

/-- WRITE_USER_REG: an index above 9 is PARAMETER_ERROR with no transfer (41_session.md R161). -/
def execWriteUserReg (index value : Byte) (s : State) : Result :=
  perform (.writeUserReg index value)
    (atStart (if userIndexOk index then writeByte (Addr.user index) value
      else respondNow (.failed .parameterError))) s

/-- The response of a scratch read of `n` data bytes and a checksum (41_session.md R162, R163): a mismatch is a flag,
the data are unmodified. -/
def scratchResponse (n : Nat) (bs : List Byte) : Response :=
  .result (scratchValue (byteAt bs n) (crc8 (bs.take n))) (bs.take n) (verify (bs.take n) (byteAt bs n))

/-- READ_SCRATCH: one transfer of 0x03 to 0x0B (41_session.md R162). -/
def execReadScratch (s : State) : Result :=
  perform .readScratch (atStart (readN Addr.status 9 (fun bs t => t.finish (scratchResponse 8 bs)))) s

/-- READ_SCRATCH_EXT: one transfer of 0x0C to 0x16 (41_session.md R163). -/
def execReadScratchExt (s : State) : Result :=
  perform .readScratchExt (atStart (readN Addr.user0 11 (fun bs t => t.finish (scratchResponse 10 bs)))) s

/-- SET_PARASITIC (41_session.md R164). -/
def execSetParasitic (enabled : Bool) (s : State) : Result :=
  perform (.setParasitic enabled) (atStart (writeByte Addr.parasitic (parasiticByte enabled))) s

/-- LAST_ERROR: the code, unchanged by its reading (41_session.md R165). -/
def execLastError (s : State) : Result :=
  perform .lastError (atStart (respondNow (.result (s.lastError.code.setWidth 32)))) s

end Sys2Proof.Machine
end

