-- ==== Sys2Proof/Machine/WaitEeprom.lean ====
section
/-! DEFINITION. The wait engine, the EEPROM command sequence and the meanings of the requests 0x30 to 0x35
(42_wait_eeprom.md R190 to R201). -/

namespace Sys2Proof.Machine

/-- Entry of a wait: `WAIT <- {POLLING, start = Now(), T, bitpos}` (42_wait_eeprom.md R190). -/
def waitEnter (bit : WaitBit) (timeout : Word32) (s : State) : Result :=
  now (fun t u => (u.setWait ⟨.polling, t, timeout, bit⟩).moveTo .waitPoll) s

/-- What a poll makes of its status read (42_wait_eeprom.md R190, R191): a failed or short read ends the wait in
TRANSPORT_ERROR, a clear busy bit ends it in READY and goes on with `ready`, a set bit goes on to the timeout test. -/
def afterPoll (bit : WaitBit) (ready : Byte → State → State) (w : Wait) : ReadAnswer → State → State
  | .fail, t => (t.setWait { w with state := .transportError }).raise .transportFailure
  | .bytes bs, t =>
    if bs.length < 1 then (t.setWait { w with state := .transportError }).raise .incompleteRead
    else if waitBusy bit (byteAt bs 0) then t.moveTo .waitClock
    else ready (byteAt bs 0) (t.setWait { w with state := .ready })

/-- The timeout test of a poll: truncated subtraction, strict comparison (42_wait_eeprom.md R190, R192). -/
def afterClock (w : Wait) (t : Nat) (u : State) : State :=
  if t - w.start > w.timeout.toNat then (u.setWait { w with state := .timedOut }).raise .timeout
  else u.moveTo .waitPause

/-- The loop of `WaitBusyClear(bitpos, T)` (42_wait_eeprom.md R190): status read, busy test, timeout test, sleep.
`ready` is what the calling rule does with the last status byte (R191). -/
def waitLoop (bit : WaitBit) (ready : Byte → State → State) (pos : Pos) (s : State) : Result :=
  match s.wait, pos with
  | some w, .waitPoll => memRead Addr.status 1 (afterPoll bit ready w) s
  | some w, .waitClock => now (afterClock w) s
  | some _, .waitPause => sleep Config.pollIntervalMs (·.moveTo .waitPoll) s
  | _, _ => .fault .strayPosition

/-- The last lines of `EeSequence` after a wait (42_wait_eeprom.md R195). -/
def eeReady (code b : Byte) (t : State) : State := (t.setEe .done).finish (.result (zext32 code) [b])

/-- `EeSequence` after its command write (42_wait_eeprom.md R195). CMD_SENT is overwritten in the same step (log 20). -/
def afterEeCommand (code : Byte) (wait ok : Bool) (t : State) : State :=
  if ok then
    let sent := t.setEe .cmdSent
    if wait then (sent.setEe .polling).moveTo .waitEnter
    else (sent.setEe .done).finish (.result (zext32 code))
  else (t.setEe .idle).raise .transportFailure

/-- `EeSequence(code, wait, T)` (42_wait_eeprom.md R195). -/
def eeSequence (code : Byte) (wait : Bool) (timeout : Word32) : Pos → State → Result
  | .start, s => memWrite Addr.eeCmd [code] (afterEeCommand code wait) s
  | .waitEnter, s => waitEnter .eeprom timeout s
  | pos, s => waitLoop .eeprom (eeReady code) pos s

/-- EE_COPY_PAGE (42_wait_eeprom.md R196). -/
def execEeCopyPage (wait : Bool) (timeout : Word32) (s : State) : Result :=
  perform (.eeCopyPage wait timeout) (eeSequence s.params.eeCopyPage wait timeout) s

/-- EE_RECALL_PAGE (42_wait_eeprom.md R197). -/
def execEeRecallPage (wait : Bool) (timeout : Word32) (s : State) : Result :=
  perform (.eeRecallPage wait timeout) (eeSequence s.params.eeRecallPage wait timeout) s

/-- EE_FULL_RECALL (42_wait_eeprom.md R198). -/
def execEeFullRecall (wait : Bool) (timeout : Word32) (s : State) : Result :=
  perform (.eeFullRecall wait timeout) (eeSequence s.params.eeFullRecall wait timeout) s

/-- EE_SOFT_RESET, a command to the device and no reset of the block (42_wait_eeprom.md R199;
70_reset_and_hazards.md R252). -/
def execEeSoftReset (wait : Bool) (timeout : Word32) (s : State) : Result :=
  perform (.eeSoftReset wait timeout) (eeSequence s.params.eeSoftReset wait timeout) s

/-- The last line of a stand-alone wait: `value = 0` and the last status byte (42_wait_eeprom.md R200, R201). -/
def waitReady (b : Byte) (t : State) : State := t.finish (.result 0 [b])

/-- The pseudocode of a stand-alone wait (42_wait_eeprom.md R200, R201). -/
def waitAlone (bit : WaitBit) (timeout : Word32) : Pos → State → Result
  | .start, s => waitEnter bit timeout s
  | pos, s => waitLoop bit waitReady pos s

/-- WAIT_CONVERSION (42_wait_eeprom.md R200). -/
def execWaitConversion (timeout : Word32) (s : State) : Result :=
  perform (.waitConversion timeout) (waitAlone .conversion timeout) s

/-- WAIT_EEPROM (42_wait_eeprom.md R201). -/
def execWaitEeprom (timeout : Word32) (s : State) : Result :=
  perform (.waitEeprom timeout) (waitAlone .eeprom timeout) s

end Sys2Proof.Machine
end

