-- ==== Sys2Proof/Machine/Dispatch.lean ====
section
/-! DEFINITION. `exec`: one SEQ step of a request, one arm per constructor of `Instr`, each one call of its meaning. -/

namespace Sys2Proof.Machine

def exec (i : Instr) (s : State) : Host.Outcome State Fault Refusal :=
  match i with
  | .encCmd mode heater => Sys2Proof.Machine.execEncCmd mode heater s
  | .decCmd byte => Sys2Proof.Machine.execDecCmd byte s
  | .encCfg rate avg sleep => Sys2Proof.Machine.execEncCfg rate avg sleep s
  | .decCfg byte => Sys2Proof.Machine.execDecCfg byte s
  | .decStatus byte => Sys2Proof.Machine.execDecStatus byte s
  | .encAlert enabled mode => Sys2Proof.Machine.execEncAlert enabled mode s
  | .decAlert byte => Sys2Proof.Machine.execDecAlert byte s
  | .decRaw lsb msb => Sys2Proof.Machine.execDecRaw lsb msb s
  | .rawToC raw => Sys2Proof.Machine.execRawToC raw s
  | .cToRaw c => Sys2Proof.Machine.execCToRaw c s
  | .crc8Upd acc byte => Sys2Proof.Machine.execCrc8Upd acc byte s
  | .configure rate avg sleep => Sys2Proof.Machine.execConfigure rate avg sleep s
  | .setMode mode heater => Sys2Proof.Machine.execSetMode mode heater s
  | .readTemp wait verify => Sys2Proof.Machine.execReadTemp wait verify s
  | .singleShot => Sys2Proof.Machine.execSingleShot s
  | .readStatus => Sys2Proof.Machine.execReadStatus s
  | .isBusy => Sys2Proof.Machine.execIsBusy s
  | .heaterOn => Sys2Proof.Machine.execHeaterOn s
  | .heaterOff => Sys2Proof.Machine.execHeaterOff s
  | .setAlertMode enabled mode => Sys2Proof.Machine.execSetAlertMode enabled mode s
  | .getAlertMode => Sys2Proof.Machine.execGetAlertMode s
  | .setHighLimit c => Sys2Proof.Machine.execSetHighLimit c s
  | .setLowLimit c => Sys2Proof.Machine.execSetLowLimit c s
  | .getHighLimit => Sys2Proof.Machine.execGetHighLimit s
  | .getLowLimit => Sys2Proof.Machine.execGetLowLimit s
  | .readDeviceId => Sys2Proof.Machine.execReadDeviceId s
  | .readRomCode => Sys2Proof.Machine.execReadRomCode s
  | .readUserReg index => Sys2Proof.Machine.execReadUserReg index s
  | .writeUserReg index value => Sys2Proof.Machine.execWriteUserReg index value s
  | .readScratch => Sys2Proof.Machine.execReadScratch s
  | .readScratchExt => Sys2Proof.Machine.execReadScratchExt s
  | .setParasitic enabled => Sys2Proof.Machine.execSetParasitic enabled s
  | .lastError => Sys2Proof.Machine.execLastError s
  | .eeCopyPage wait timeout => Sys2Proof.Machine.execEeCopyPage wait timeout s
  | .eeRecallPage wait timeout => Sys2Proof.Machine.execEeRecallPage wait timeout s
  | .eeFullRecall wait timeout => Sys2Proof.Machine.execEeFullRecall wait timeout s
  | .eeSoftReset wait timeout => Sys2Proof.Machine.execEeSoftReset wait timeout s
  | .waitConversion timeout => Sys2Proof.Machine.execWaitConversion timeout s
  | .waitEeprom timeout => Sys2Proof.Machine.execWaitEeprom timeout s

end Sys2Proof.Machine
end

