-- ==== Sys2Proof/Machine/Step.lean ====
section
/-! DEFINITION. One step of the machine (00_scope.md R6; 10_state.md R27, R31): in IDLE the word at the request port
is decoded and accepted, a running request takes its next step, and an illegal word is answered (30_encoding.md R83).
With no request at the port SEQ waits in IDLE (70_reset_and_hazards.md R250; log 4). -/

namespace Sys2Proof.Machine

/-- One SEQ step. -/
def step (s : State) : Host.Outcome State Fault Refusal :=
  match s.phase with
  | .idle =>
    match s.requests with
    | [] => .next s
    | w :: _ =>
      match decode w with
      | some i => exec i s
      | none => .next (s.acceptIllegal w)
  | .run i _ => exec i s
  | .runIllegal _ => respondNow illegalResponse s

/-- HOST presents the word `w` (its bits above `nbits` zero) to an idle block: it stands first at the request port, so
that the very next step decodes and accepts it (log 11). -/
def State.withFetchWord (s : State) (nbits w : Nat) : State :=
  { s with phase := .idle, requests := BitVec.ofNat 64 (w % 2 ^ nbits) :: s.requests }

end Sys2Proof.Machine
end

