-- ==== Sys2Proof/Machine/Assembler.lean ====
section
/-! DEFINITION. The assembler syntax and the pseudo-instructions (30_encoding.md R100, R101). The assembler is no part
of a step: it is how HOST's request words are written. Where R100 gives no grammar (blanks, letter case, leading zeros,
the forms of a number and of a decimal literal, the sign of a zero literal) the forms taken are DESIGN CHOICE
(log 19). -/

namespace Sys2Proof.Machine

/-- TRIGGER_SINGLE (30_encoding.md R101). -/
def triggerSingle : Instr := .setMode .singleShot false

/-- HEATER (30_encoding.md R101). -/
def heater (on : Bool) : Instr := if on then .heaterOn else .heaterOff

/-- The requests of `CRC8 b0, ..., b(n-1)` from the accumulator `acc` on, each `acc` being the `value` of the request
before (30_encoding.md R101; 40_codec.md R133). -/
def crc8RequestsFrom (acc : Byte) : List Byte → List Instr
  | [] => []
  | b :: bs => .crc8Upd acc b :: crc8RequestsFrom (crc8Update acc b) bs

/-- `CRC8 b0, ..., b(n-1)` (30_encoding.md R101): from `a_0 = 0`. -/
def crc8Requests (bs : List Byte) : List Instr := crc8RequestsFrom 0 bs

/-- The digit value of a character, decimal or hexadecimal, of either letter case: DESIGN CHOICE (log 19). -/
def digitValue (c : Char) : Option Nat :=
  let n := c.toNat
  if 48 ≤ n ∧ n ≤ 57 then some (n - 48)
  else if 97 ≤ n ∧ n ≤ 102 then some (n - 87)
  else if 65 ≤ n ∧ n ≤ 70 then some (n - 55)
  else none

/-- The number a non-empty string of digits of a base writes. -/
def parseDigits (base : Nat) (cs : List Char) : Option Nat :=
  if cs.isEmpty then none
  else cs.foldl (fun acc c => do
    let a ← acc
    let d ← digitValue c
    if d < base then some (a * base + d) else none) (some 0)

/-- A natural number, decimal or `0x` hexadecimal (30_encoding.md R100), leading zeros allowed: DESIGN CHOICE (log 19). -/
def parseNat : List Char → Option Nat
  | '0' :: 'x' :: cs => parseDigits 16 cs
  | cs => parseDigits 10 cs

/-- A `u8` operand (30_encoding.md R100). -/
def parseU8 (cs : List Char) : Option Byte := do
  let n ← parseNat cs
  if n < 2 ^ 8 then some (BitVec.ofNat 8 n) else none

/-- A `u32` operand (30_encoding.md R100). -/
def parseU32 (cs : List Char) : Option Word32 := do
  let n ← parseNat cs
  if n < 2 ^ 32 then some (BitVec.ofNat 32 n) else none

/-- A `raw` operand: a signed decimal from -32768 to 32767, or a `0x` hexadecimal 16-bit pattern (30_encoding.md
R100). DESIGN CHOICE (log 19): a leading plus sign is refused, and the pattern may have fewer than four digits. -/
def parseRaw : List Char → Option Word16
  | '0' :: 'x' :: cs => do
    let n ← parseDigits 16 cs
    if n < 2 ^ 16 then some (BitVec.ofNat 16 n) else none
  | '-' :: cs => do
    let n ← parseDigits 10 cs
    if n ≤ 32768 then some (BitVec.ofInt 16 (-(n : Int))) else none
  | cs => do
    let n ← parseDigits 10 cs
    if n ≤ 32767 then some (BitVec.ofNat 16 n) else none

/-- A boolean operand, `0` or `1` (30_encoding.md R100). -/
def parseBit : List Char → Option Bool
  | ['0'] => some false
  | ['1'] => some true
  | _ => none

/-- The value a name has in a list of names. -/
def lookupName {α : Type} (names : List (String × α)) (cs : List Char) : Option α :=
  (names.find? (fun p => p.1.toList == cs)).map Prod.snd

/-- The assembler names of the modes (30_encoding.md R86). -/
def parseMode : List Char → Option Mode :=
  lookupName [("Continuous", .continuous), ("Stop", .stop), ("ContinuousReadback", .continuousReadback),
    ("SingleShot", .singleShot)]

/-- The assembler names of the sample rates (30_encoding.md R87). -/
def parseRate : List Char → Option Rate :=
  lookupName [("MPS_8Hz", .mps8Hz), ("MPS_4Hz", .mps4Hz), ("MPS_2Hz", .mps2Hz), ("MPS_1Hz", .mps1Hz),
    ("MPS_0_5Hz", .mps1over2Hz), ("MPS_0_25Hz", .mps1over4Hz), ("MPS_0_125Hz", .mps1over8Hz),
    ("MPS_0_0625Hz", .mps1over16Hz)]

/-- The assembler names of the averaging counts (30_encoding.md R88). -/
def parseAvg : List Char → Option Avg :=
  lookupName [("AVG_1", .avg1), ("AVG_8", .avg8), ("AVG_16", .avg16), ("AVG_32", .avg32)]

/-- The names of the alert modes (30_encoding.md R90, R100). -/
def parseAlertMode : List Char → Option AlertMode :=
  lookupName [("HighAlarmLowClear", .highAlarmLowClear), ("HighAlarmLowAlarm", .highAlarmLowAlarm)]

/-- The finite binary32 word of magnitude `u` units of 2^-149, if there is one (93_implementation_defined.md G1): a
subnormal below 2^23, else a 24-bit significand moved up. -/
def f32OfMagnitude (negative : Bool) (u : Nat) : Option Word32 :=
  if u < 2 ^ 23 then some (BitVec.ofBool negative ++ (0#8 ++ BitVec.ofNat 23 u))
  else
    let sh := Nat.log2 u - 23
    if u % 2 ^ sh = 0 ∧ sh + 1 ≤ 254 then
      some (BitVec.ofBool negative ++ (BitVec.ofNat 8 (sh + 1) ++ BitVec.ofNat 23 (u / 2 ^ sh)))
    else none

/-- An unsigned decimal literal, as its digits' number and how many stand after the point. DESIGN CHOICE (log 19):
R100 gives no grammar for it, and only `digits` and `digits.digits` are taken; an exponent, `.5` and `5.` are refused. -/
def parseDecimal (cs : List Char) : Option (Nat × Nat) :=
  let whole := cs.takeWhile (· ≠ '.')
  match cs.dropWhile (· ≠ '.') with
  | [] => (parseDigits 10 whole).map (·, 0)
  | _ :: frac => do
    let _ ← parseDigits 10 whole
    let _ ← parseDigits 10 frac
    let n ← parseDigits 10 (whole ++ frac)
    some (n, frac.length)

/-- A decimal literal whose value is exactly a binary32 value; any other is refused (30_encoding.md R100). -/
def parseExactDecimal (negative : Bool) (cs : List Char) : Option Word32 := do
  let (n, k) ← parseDecimal cs
  if n * 2 ^ 149 % 10 ^ k = 0 then f32OfMagnitude negative (n * 2 ^ 149 / 10 ^ k) else none

/-- A `c` operand: `f32:0x` and 8 hexadecimal digits, or an exact decimal literal (30_encoding.md R100). DESIGN CHOICE
(log 19): a decimal literal may begin with one minus sign and not with a plus sign. -/
def parseF32 : List Char → Option Word32
  | 'f' :: '3' :: '2' :: ':' :: '0' :: 'x' :: cs => do
    let n ← parseDigits 16 cs
    if cs.length = 8 then some (BitVec.ofNat 32 n) else none
  | '-' :: cs => parseExactDecimal true cs
  | cs => parseExactDecimal false cs

/-- One row of the assembler: the mnemonic, the operand names in the order of the syntax column of
spec/opcode_table.json, and the request the operand values give. -/
structure AsmRow where
  mnemonic : String
  operands : List String
  build : List (List Char) → Option Instr

/-- The codec rows of the assembler. -/
def asmCodecRows : List AsmRow :=
  [⟨"ENC_CMD", ["mode", "heater"], fun vs => match vs with | [v0, v1] => (do return .encCmd (← parseMode v0) (← parseBit v1)) | _ => none⟩,
   ⟨"DEC_CMD", ["byte"], fun vs => match vs with | [v0] => (do return .decCmd (← parseU8 v0)) | _ => none⟩,
   ⟨"ENC_CFG", ["rate", "avg", "sleep"], fun vs => match vs with | [v0, v1, v2] => (do return .encCfg (← parseRate v0) (← parseAvg v1) (← parseBit v2)) | _ => none⟩,
   ⟨"DEC_CFG", ["byte"], fun vs => match vs with | [v0] => (do return .decCfg (← parseU8 v0)) | _ => none⟩,
   ⟨"DEC_STATUS", ["byte"], fun vs => match vs with | [v0] => (do return .decStatus (← parseU8 v0)) | _ => none⟩,
   ⟨"ENC_ALERT", ["enabled", "mode"], fun vs => match vs with | [v0, v1] => (do return .encAlert (← parseBit v0) (← parseAlertMode v1)) | _ => none⟩,
   ⟨"DEC_ALERT", ["byte"], fun vs => match vs with | [v0] => (do return .decAlert (← parseU8 v0)) | _ => none⟩,
   ⟨"DEC_RAW", ["lsb", "msb"], fun vs => match vs with | [v0, v1] => (do return .decRaw (← parseU8 v0) (← parseU8 v1)) | _ => none⟩,
   ⟨"RAW_TO_C", ["raw"], fun vs => match vs with | [v0] => (do return .rawToC (← parseRaw v0)) | _ => none⟩,
   ⟨"C_TO_RAW", ["c"], fun vs => match vs with | [v0] => (do return .cToRaw (← parseF32 v0)) | _ => none⟩,
   ⟨"CRC8_UPD", ["acc", "byte"], fun vs => match vs with | [v0, v1] => (do return .crc8Upd (← parseU8 v0) (← parseU8 v1)) | _ => none⟩]

/-- The session rows of the assembler. -/
def asmSessionRows : List AsmRow :=
  [⟨"CONFIGURE", ["rate", "avg", "sleep"], fun vs => match vs with | [v0, v1, v2] => (do return .configure (← parseRate v0) (← parseAvg v1) (← parseBit v2)) | _ => none⟩,
   ⟨"SET_MODE", ["mode", "heater"], fun vs => match vs with | [v0, v1] => (do return .setMode (← parseMode v0) (← parseBit v1)) | _ => none⟩,
   ⟨"READ_TEMP", ["wait", "verify"], fun vs => match vs with | [v0, v1] => (do return .readTemp (← parseBit v0) (← parseBit v1)) | _ => none⟩,
   ⟨"SINGLE_SHOT", [], fun _ => some .singleShot⟩,
   ⟨"READ_STATUS", [], fun _ => some .readStatus⟩,
   ⟨"IS_BUSY", [], fun _ => some .isBusy⟩,
   ⟨"HEATER_ON", [], fun _ => some .heaterOn⟩,
   ⟨"HEATER_OFF", [], fun _ => some .heaterOff⟩,
   ⟨"SET_ALERT_MODE", ["enabled", "mode"], fun vs => match vs with | [v0, v1] => (do return .setAlertMode (← parseBit v0) (← parseAlertMode v1)) | _ => none⟩,
   ⟨"GET_ALERT_MODE", [], fun _ => some .getAlertMode⟩,
   ⟨"SET_HIGH_LIMIT", ["c"], fun vs => match vs with | [v0] => (do return .setHighLimit (← parseF32 v0)) | _ => none⟩,
   ⟨"SET_LOW_LIMIT", ["c"], fun vs => match vs with | [v0] => (do return .setLowLimit (← parseF32 v0)) | _ => none⟩,
   ⟨"GET_HIGH_LIMIT", [], fun _ => some .getHighLimit⟩,
   ⟨"GET_LOW_LIMIT", [], fun _ => some .getLowLimit⟩,
   ⟨"READ_DEVICE_ID", [], fun _ => some .readDeviceId⟩,
   ⟨"READ_ROM_CODE", [], fun _ => some .readRomCode⟩,
   ⟨"READ_USER_REG", ["index"], fun vs => match vs with | [v0] => (do return .readUserReg (← parseU8 v0)) | _ => none⟩,
   ⟨"WRITE_USER_REG", ["index", "value"], fun vs => match vs with | [v0, v1] => (do return .writeUserReg (← parseU8 v0) (← parseU8 v1)) | _ => none⟩,
   ⟨"READ_SCRATCH", [], fun _ => some .readScratch⟩,
   ⟨"READ_SCRATCH_EXT", [], fun _ => some .readScratchExt⟩,
   ⟨"SET_PARASITIC", ["enabled"], fun vs => match vs with | [v0] => (do return .setParasitic (← parseBit v0)) | _ => none⟩,
   ⟨"LAST_ERROR", [], fun _ => some .lastError⟩]

/-- The EEPROM and wait rows of the assembler, and the one-request pseudo-instructions (30_encoding.md R101). -/
def asmWaitAndPseudoRows : List AsmRow :=
  [⟨"EE_COPY_PAGE", ["wait", "timeout"], fun vs => match vs with | [v0, v1] => (do return .eeCopyPage (← parseBit v0) (← parseU32 v1)) | _ => none⟩,
   ⟨"EE_RECALL_PAGE", ["wait", "timeout"], fun vs => match vs with | [v0, v1] => (do return .eeRecallPage (← parseBit v0) (← parseU32 v1)) | _ => none⟩,
   ⟨"EE_FULL_RECALL", ["wait", "timeout"], fun vs => match vs with | [v0, v1] => (do return .eeFullRecall (← parseBit v0) (← parseU32 v1)) | _ => none⟩,
   ⟨"EE_SOFT_RESET", ["wait", "timeout"], fun vs => match vs with | [v0, v1] => (do return .eeSoftReset (← parseBit v0) (← parseU32 v1)) | _ => none⟩,
   ⟨"WAIT_CONVERSION", ["timeout"], fun vs => match vs with | [v0] => (do return .waitConversion (← parseU32 v0)) | _ => none⟩,
   ⟨"WAIT_EEPROM", ["timeout"], fun vs => match vs with | [v0] => (do return .waitEeprom (← parseU32 v0)) | _ => none⟩,
   ⟨"TRIGGER_SINGLE", [], fun _ => some triggerSingle⟩,
   ⟨"HEATER", ["on"], fun vs => match vs with | [v0] => (do return heater (← parseBit v0)) | _ => none⟩]

/-- Every row of the assembler. -/
def asmRows : List AsmRow := asmCodecRows ++ (asmSessionRows ++ asmWaitAndPseudoRows)

/-- A text cut at every occurrence of a character. -/
def splitAtChar (c : Char) : List Char → List (List Char)
  | [] => [[]]
  | x :: xs =>
    if x = c then [] :: splitAtChar c xs
    else match splitAtChar c xs with
      | [] => [[x]]
      | p :: ps => (x :: p) :: ps

/-- A text without the blanks at its ends; only the space character is a blank: DESIGN CHOICE (log 19). -/
def trimBlanks (cs : List Char) : List Char :=
  ((cs.dropWhile (· = ' ')).reverse.dropWhile (· = ' ')).reverse

/-- The operand texts of a line, separated by commas (30_encoding.md R100); none for a blank text. -/
def operandTexts (cs : List Char) : List (List Char) :=
  if (trimBlanks cs).isEmpty then [] else (splitAtChar ',' cs).map trimBlanks

/-- The value text of an operand written `name=value` (30_encoding.md R100), with no blank around the `=`:
DESIGN CHOICE (log 19). -/
def operandValue (name : String) (cs : List Char) : Option (List Char) :=
  if name.toList ++ ['='] = cs.take (name.length + 1) then some (cs.drop (name.length + 1)) else none

/-- The value texts of operands that must be exactly the named ones in order (30_encoding.md R100): none has a
default. -/
def operandValues : List String → List (List Char) → Option (List (List Char))
  | [], [] => some []
  | n :: ns, o :: os => do return (← operandValue n o) :: (← operandValues ns os)
  | _, _ => none

/-- The requests a line of assembler text stands for: one, or for `CRC8` one for each byte (30_encoding.md R100,
R101). -/
def parseLine (line : List Char) : Option (List Instr) :=
  let text := trimBlanks line
  let mnemonic := text.takeWhile (· ≠ ' ')
  let ops := operandTexts (text.dropWhile (· ≠ ' '))
  if mnemonic = "CRC8".toList then do return crc8Requests (← ops.mapM parseU8)
  else do
    let row ← asmRows.find? (fun r => r.mnemonic.toList == mnemonic)
    let values ← operandValues row.operands ops
    return [← row.build values]

/-- The request words a line of assembler text assembles to (30_encoding.md R100): each operand in its field, every
other bit 0. -/
def assemble (line : String) : Option (List Word64) := (parseLine line.toList).map (·.map encode)

end Sys2Proof.Machine
end

