-- ==== Sys2Proof/Safety.lean ====
section
/-! DEFINITION. What statements about whole runs speak of: runs of several steps, the transfers of a trace and the
exhaustive table of 20_memory.md R65, the primitive each position performs, the invariant that ties SEQ_PHASE, WAIT,
EE_STATE and the trace together (10_state.md R27 to R29), and the scripts of a wait under the clock contract
(60_exceptions.md R228). The tables here are written from the rules a second time and are used by no step. -/

namespace Sys2Proof.Machine

/-- `n` steps, stopping at the first fault or refusal. -/
def steps : Nat → State → Result
  | 0, s => .next s
  | n + 1, s =>
    match step s with
    | .next t => steps n t
    | .fault f => .fault f
    | .refused r => .refused r

/-- A transfer by direction, address and byte count (20_memory.md R65). -/
inductive Transfer where
  | read (addr : Byte) (n : Nat)
  | write (addr : Byte) (n : Nat)
  deriving DecidableEq, Repr

/-- The transfer of an event, if it is one. -/
def Event.transfer? : Event → Option Transfer
  | .memRead addr n _ => some (.read addr n)
  | .memWrite addr bytes _ => some (.write addr bytes.length)
  | .now _ => none
  | .sleep _ => none

/-- The transfers of a trace, in order. -/
def transfers (tr : List Event) : List Transfer := tr.filterMap Event.transfer?

/-- The busy bit and the timeout of the wait a request runs, if it runs one (42_wait_eeprom.md R195, R200, R201). -/
def waitOf : Instr → Option (WaitBit × Word32)
  | .eeCopyPage true t => some (.eeprom, t)
  | .eeRecallPage true t => some (.eeprom, t)
  | .eeFullRecall true t => some (.eeprom, t)
  | .eeSoftReset true t => some (.eeprom, t)
  | .waitConversion t => some (.conversion, t)
  | .waitEeprom t => some (.eeprom, t)
  | _ => none

/-- The EEPROM command byte of a request, if it sends one (42_wait_eeprom.md R196 to R199). -/
def eeCode (p : Params) : Instr → Option Byte
  | .eeCopyPage _ _ => some p.eeCopyPage
  | .eeRecallPage _ _ => some p.eeRecallPage
  | .eeFullRecall _ _ => some p.eeFullRecall
  | .eeSoftReset _ _ => some p.eeSoftReset
  | _ => none

/-- The EEPROM requests, those that run `EeSequence` (42_wait_eeprom.md R195 to R199). -/
def isEeprom : Instr → Bool
  | .eeCopyPage _ _ => true
  | .eeRecallPage _ _ => true
  | .eeFullRecall _ _ => true
  | .eeSoftReset _ _ => true
  | _ => false

/-- The codec requests, opcodes 0x01 to 0x0B (40_codec.md R110). -/
def isCodec : Instr → Bool
  | .encCmd _ _ | .decCmd _ | .encCfg _ _ _ | .decCfg _ | .decStatus _ | .encAlert _ _ | .decAlert _ => true
  | .decRaw _ _ | .rawToC _ | .cToRaw _ | .crc8Upd _ _ => true
  | _ => false

/-- The transfers of a request, in order, without the polls of a wait (20_memory.md R65). -/
def transferRow : Instr → List Transfer
  | .configure _ _ _ => [.write 0x05 1]
  | .setMode _ _ => [.write 0x04 1]
  | .readTemp _ checked => [.read 0x00 (if checked then 3 else 2)]
  | .singleShot => [.write 0x04 1, .read 0x00 3]
  | .readStatus => [.read 0x03 1]
  | .isBusy => [.read 0x03 1]
  | .heaterOn => [.read 0x04 1, .write 0x04 1]
  | .heaterOff => [.read 0x04 1, .write 0x04 1]
  | .setAlertMode _ _ => [.write 0x06 1]
  | .getAlertMode => [.read 0x06 1]
  | .setHighLimit _ => [.write 0x07 2]
  | .setLowLimit _ => [.write 0x09 2]
  | .getHighLimit => [.read 0x07 2]
  | .getLowLimit => [.read 0x09 2]
  | .readDeviceId => [.read 0x18 2]
  | .readRomCode => [.read 0x1A 5]
  | .readUserReg index => [.read (0x0C + index) 1]
  | .writeUserReg index _ => [.write (0x0C + index) 1]
  | .readScratch => [.read 0x03 9]
  | .readScratchExt => [.read 0x0C 11]
  | .setParasitic _ => [.write 0x63 1]
  | .eeCopyPage _ _ => [.write 0x17 1]
  | .eeRecallPage _ _ => [.write 0x17 1]
  | .eeFullRecall _ _ => [.write 0x17 1]
  | .eeSoftReset _ _ => [.write 0x17 1]
  | .encCmd _ _ | .decCmd _ | .encCfg _ _ _ | .decCfg _ | .decStatus _ | .encAlert _ _ | .decAlert _ => []
  | .decRaw _ _ | .rawToC _ | .cToRaw _ | .crc8Upd _ _ | .lastError | .waitConversion _ | .waitEeprom _ => []

/-- The one transfer of each poll of a wait (20_memory.md R65). -/
def pollTransfer : Transfer := .read 0x03 1

/-- The transfers of a request and `polls` polls, if it waits (20_memory.md R65). -/
def transfersWith (i : Instr) (polls : Nat) : List Transfer :=
  transferRow i ++ List.replicate (if (waitOf i).isSome then polls else 0) pollTransfer

/-- The addresses of 20_memory.md R65: the only ones the block ever uses (R60; log 15). -/
def usedAddress (a : Byte) : Bool := a.toNat ≤ 0x1E || a.toNat == 0x63

/-- Every address a transfer reaches (20_memory.md R62). -/
def Transfer.addresses : Transfer → List Byte
  | .read addr n => (List.range n).map fun k => addr + BitVec.ofNat 8 k
  | .write addr n => (List.range n).map fun k => addr + BitVec.ofNat 8 k

/-- A primitive with its arguments (00_scope.md R10). -/
inductive Primitive where
  | memRead (addr : Byte) (n : Nat)
  | memWrite (addr : Byte) (bytes : List Byte)
  | now
  | sleep (d : Nat)
  deriving DecidableEq, Repr

/-- The event of a primitive and an answer to it, if the answer is one of that primitive and keeps the transfer
contract (00_scope.md R10; 20_memory.md R61). -/
def Primitive.event? : Primitive → Answer → Option Event
  | .memRead addr n, .read .fail => some (.memRead addr n .fail)
  | .memRead addr n, .read (.bytes s) => if s.length ≤ n then some (.memRead addr n (.bytes s)) else none
  | .memWrite addr bytes, .written ok => some (.memWrite addr bytes ok)
  | .now, .time t => some (.now t)
  | .sleep d, .slept => some (.sleep d)
  | _, _ => none

/-- The first primitive of a request, if it performs one (41_session.md R143 to R165; 42_wait_eeprom.md R195 to
R201). -/
def firstPrimitive (s : State) : Instr → Option Primitive
  | .configure rate avg slp => some (.memWrite 0x05 [encodeConfig rate.code avg.code slp])
  | .setMode mode heater => some (.memWrite 0x04 [encodeCommand mode.code heater])
  | .readTemp wait checked =>
    some (if wait then .sleep (latency s.cfg) else .memRead 0x00 (if checked then 3 else 2))
  | .singleShot => some (.memWrite 0x04 [0xC0])
  | .readStatus => some (.memRead 0x03 1)
  | .isBusy => some (.memRead 0x03 1)
  | .heaterOn => some (.memRead 0x04 1)
  | .heaterOff => some (.memRead 0x04 1)
  | .setAlertMode enabled mode => some (.memWrite 0x06 [encodeAlert s.params enabled mode.bit])
  | .getAlertMode => some (.memRead 0x06 1)
  | .setHighLimit c => (celsiusToRaw c).map fun raw => .memWrite 0x07 (encodeRawPair raw)
  | .setLowLimit c => (celsiusToRaw c).map fun raw => .memWrite 0x09 (encodeRawPair raw)
  | .getHighLimit => some (.memRead 0x07 2)
  | .getLowLimit => some (.memRead 0x09 2)
  | .readDeviceId => some (.memRead 0x18 2)
  | .readRomCode => some (.memRead 0x1A 5)
  | .readUserReg index => if index.toNat ≤ 9 then some (.memRead (0x0C + index) 1) else none
  | .writeUserReg index value => if index.toNat ≤ 9 then some (.memWrite (0x0C + index) [value]) else none
  | .readScratch => some (.memRead 0x03 9)
  | .readScratchExt => some (.memRead 0x0C 11)
  | .setParasitic enabled => some (.memWrite 0x63 [if enabled then 0x0A else 0x00])
  | .eeCopyPage _ _ => some (.memWrite 0x17 [s.params.eeCopyPage])
  | .eeRecallPage _ _ => some (.memWrite 0x17 [s.params.eeRecallPage])
  | .eeFullRecall _ _ => some (.memWrite 0x17 [s.params.eeFullRecall])
  | .eeSoftReset _ _ => some (.memWrite 0x17 [s.params.eeSoftReset])
  | .waitConversion _ => some .now
  | .waitEeprom _ => some .now
  | .encCmd _ _ | .decCmd _ | .encCfg _ _ _ | .decCfg _ | .decStatus _ | .encAlert _ _ | .decAlert _ => none
  | .decRaw _ _ | .rawToC _ | .cToRaw _ | .crc8Upd _ _ | .lastError => none

/-- The primitive a running request performs next, nothing where its response is due (10_state.md R27). -/
def primitiveAt (i : Instr) (s : State) : Pos → Option Primitive
  | .start => firstPrimitive s i
  | .triggered => some (.sleep (latency s.cfg))
  | .delayed =>
    match i with
    | .readTemp _ false => some (.memRead 0x00 2)
    | _ => some (.memRead 0x00 3)
  | .commandRead b =>
    match i with
    | .heaterOn => some (.memWrite 0x04 [(b &&& 0xF0) ||| 0x0A])
    | _ => some (.memWrite 0x04 [b &&& 0xF0])
  | .waitEnter => some .now
  | .waitPoll => some (.memRead 0x03 1)
  | .waitClock => some .now
  | .waitPause => some (.sleep 1)
  | .respond _ => none

/-- The positions of a request's pseudocode (10_state.md R27; 41_session.md; 42_wait_eeprom.md). -/
def PosFits (i : Instr) : Pos → Bool
  | .start => true
  | .triggered => i == .singleShot
  | .delayed =>
    match i with
    | .singleShot => true
    | .readTemp wait _ => wait
    | _ => false
  | .commandRead _ => i == .heaterOn || i == .heaterOff
  | .waitEnter => isEeprom i && (waitOf i).isSome
  | .waitPoll => (waitOf i).isSome
  | .waitClock => (waitOf i).isSome
  | .waitPause => (waitOf i).isSome
  | .respond _ => !isCodec i && i != .lastError

/-- A terminal `WAIT.state` with the status of its request's response (42_wait_eeprom.md R191). -/
def WaitOutcome : WaitState → Status → Prop
  | .polling, _ => False
  | .ready, e => e = .ok
  | .timedOut, e => e = .timeout
  | .transportError, e => e = .transportFailure ∨ e = .incompleteRead

/-- WAIT at a position: a polling wait with the request's bit and timeout inside the loop, the outcome's state with
the response, absent before (10_state.md R28; 42_wait_eeprom.md R190, R191). -/
def WaitFits (i : Instr) (wait : Option Wait) : Pos → Prop
  | .waitPoll | .waitClock | .waitPause =>
    ∃ w, wait = some w ∧ w.state = .polling ∧ waitOf i = some (w.bit, w.timeout)
  | .respond r =>
    match wait with
    | none => waitOf i = none ∨ (isEeprom i = true ∧ r.status = .transportFailure)
    | some w => waitOf i = some (w.bit, w.timeout) ∧ WaitOutcome w.state r.status
  | _ => wait = none

/-- EE_STATE at a position: IDLE outside an EEPROM request, POLLING during its wait, DONE with a response of status
OK (10_state.md R29; 42_wait_eeprom.md R195). -/
def EeFits (i : Instr) (ee : EeState) : Pos → Prop
  | .waitEnter => ee = .polling
  | .waitPoll | .waitClock | .waitPause => ee = if isEeprom i then .polling else .idle
  | .respond r =>
    if isEeprom i then (if r.status = .ok then ee = .done else ee = .idle ∨ ee = .polling) else ee = .idle
  | _ => ee = .idle

/-- The transfers performed at a position: the row of 20_memory.md R65 up to there; a response of status OK has all of
the row. -/
def TransfersFit (i : Instr) (ts : List Transfer) : Pos → Prop
  | .start => ts = []
  | .triggered => ts = [.write 0x04 1]
  | .delayed => ts = if i = .singleShot then [.write 0x04 1] else []
  | .commandRead _ => ts = [.read 0x04 1]
  | .waitEnter => ts = transferRow i
  | .waitPoll | .waitClock | .waitPause => ∃ k, ts = transfersWith i k
  | .respond r => (∃ k, ts <+: transfersWith i k) ∧ (r.status = .ok → transferRow i <+: ts)

/-- A response record within 30_encoding.md R84 and R85: at most ten data bytes; no data and a plain value of 0
without `valid`; a failed request returns no data. -/
def Response.wellFormed (r : Response) : Bool :=
  r.data.length ≤ 10 && (r.valid || (r.value == 0 && r.data.isEmpty)) && (r.status == .ok || r.data.isEmpty)

/-- The responses of a running request's position are well formed. -/
def ResponseFits : Pos → Prop
  | .respond r => r.wellFormed = true
  | _ => True

/-- A running request's position, WAIT, EE_STATE, transfers and response belong together (10_state.md R27 to R29). -/
structure RunFits (i : Instr) (pos : Pos) (s : State) : Prop where
  posFits : PosFits i pos = true
  startFits : pos = .start → s.trace = []
  waitFits : WaitFits i s.wait pos
  eeFits : EeFits i s.ee pos
  transfersFit : TransfersFit i (transfers s.trace) pos
  responseFits : ResponseFits pos

/-- SEQ_PHASE fits the rest of the state (10_state.md R27 to R29). -/
def PhaseFits (s : State) : Prop :=
  match s.phase with
  | .idle => s.wait = none ∧ s.ee = .idle
  | .runIllegal _ => s.wait = none ∧ s.ee = .idle ∧ s.trace = []
  | .run i pos => RunFits i pos s

/-- The invariant of the sequencer: SEQ_PHASE fits, BUS_ADDR is the parameter (10_state.md R25), and the response
record at the port is well formed. -/
structure WellPhased (s : State) : Prop where
  phaseFits : PhaseFits s
  busAddr : s.busAddr = s.params.busAddr
  rspWellFormed : s.rsp.wellFormed = true

/-- The environment keeps its contract for the next step: if a running request performs a primitive next and the
environment's list is not exhausted, its head answers that primitive (00_scope.md R10; 20_memory.md R61). -/
def NextAnswerFits (s : State) : Prop :=
  ∀ i pos p a rest, s.phase = .run i pos → primitiveAt i s pos = some p → s.answers = a :: rest →
    (p.event? a).isSome = true

/-- The answers of a wait's polls: for each pair a status byte, the iteration's clock reading, and the end of the
sleep (42_wait_eeprom.md R190). -/
def pollScript : List (Byte × Nat) → List Answer
  | [] => []
  | (b, t) :: ps => .read (.bytes [b]) :: .time t :: .slept :: pollScript ps

/-- The clock contract for the readings of a wait's polls (60_exceptions.md R228, items 1 and 2): the first is at
least `lo`, and each is at least the poll interval above the one before, a sleep lying between them. -/
def risingFrom (lo : Nat) : List (Byte × Nat) → Bool
  | [] => true
  | (_, t) :: ps => decide (lo ≤ t) && risingFrom (t + 1) ps

/-- Every status byte of the polls has the busy bit set. -/
def allBusy (bit : WaitBit) (ps : List (Byte × Nat)) : Bool := ps.all fun p => p.1.getLsbD bit.pos

/-- An ideal clock from `t`: each sleep of 1 ms advances it by exactly 1 (42_wait_eeprom.md R193). -/
def idealPolls (t : Nat) : List Byte → List (Byte × Nat)
  | [] => []
  | b :: bs => (b, t) :: idealPolls (t + 1) bs

/-- The number of reads in a trace. -/
def readCount (tr : List Event) : Nat :=
  tr.countP fun e => match e with | .memRead _ _ _ => true | _ => false

/-- The number of sleeps in a trace. -/
def sleepCount (tr : List Event) : Nat :=
  tr.countP fun e => match e with | .sleep _ => true | _ => false

/-- The position at which a waiting request enters its wait: a stand-alone wait at its start, an EEPROM request after
its command write (42_wait_eeprom.md R195, R200, R201). -/
def waitEntry (i : Instr) : Pos := if isEeprom i then .waitEnter else .start

/-- A transfer that did not complete as asked: a failed write, a failed read, or a read of too few bytes
(41_session.md R141, R142). -/
def Event.failed : Event → Bool
  | .memRead _ _ .fail => true
  | .memRead _ n (.bytes s) => s.length < n
  | .memWrite _ _ ok => !ok
  | .now _ => false
  | .sleep _ => false

/-- `s` after a primitive of request `i`: its answer is taken, leaving `rest`, its event `e` is recorded, and `i` is at
`pos`. Nothing else differs from `s`. -/
def after (s : State) (i : Instr) (rest : List Answer) (e : Event) (pos : Pos) : State :=
  { s with answers := rest, trace := s.trace ++ [e], phase := .run i pos }

/-- `s` after the response `r` is emitted, LAST_ERROR apart: nothing else differs from `s` (10_state.md R27 to R29,
R31). -/
def responded (s : State) (r : Response) : State :=
  { s with phase := .idle, wait := none, ee := .idle, rspValid := true, rsp := r }

/-- A response of status OK with `valid = 1` (30_encoding.md R84). -/
def okResponse (value : Word32) (data : List Byte) (chk : Chk) : Response := ⟨.ok, chk, true, value, data⟩

/-- A response that carries a status and nothing else (30_encoding.md R85). -/
def errorResponse (e : Status) : Response := ⟨e, .notChecked, false, 0, []⟩

/-- The request `i`, about to read `n` bytes from `addr` in `s`, raises TRANSPORT_FAILURE on a failed read and
INCOMPLETE_READ on a short one (41_session.md R141). -/
def ReadRaises (i : Instr) (s : State) (addr : Byte) (n : Nat) : Prop :=
  (∀ rest, s.answers = .read .fail :: rest →
    exec i s = .next (after s i rest (.memRead addr n .fail) (.respond (errorResponse .transportFailure)))) ∧
  (∀ bs rest, bs.length < n → s.answers = .read (.bytes bs) :: rest →
    exec i s = .next (after s i rest (.memRead addr n (.bytes bs)) (.respond (errorResponse .incompleteRead))))

/-- The request `i`, about to write `bytes` to `addr` in `s`, raises TRANSPORT_FAILURE on a failed write, every block
register unchanged (41_session.md R142). -/
def WriteRaises (i : Instr) (s : State) (addr : Byte) (bytes : List Byte) : Prop :=
  ∀ rest, s.answers = .written false :: rest →
    exec i s = .next (after s i rest (.memWrite addr bytes false) (.respond (errorResponse .transportFailure)))

end Sys2Proof.Machine
end

