-- ==== Sys2Proof/Certificates/Slice0/Obligations.lean ====
section
/-! DEFINITION. The statements for the provers. Each docstring names the rule or the spec section it rests on. -/

open Sys2Proof Sys2Proof.Machine

/-! ### Encoding -/

/-- Decoding an encoded request gives it back, with every operand (30_encoding.md R81, R98, R99). -/
def Obligations.DecodeOfEncodeIsTheRequest : Prop := ∀ i : Instr, decode (encode i) = some i

/-- A word that decodes is the encoding of the request it decodes to: no bit of a legal word is dropped
(30_encoding.md R82). -/
def Obligations.EncodeOfDecodeIsTheWord : Prop := ∀ (w : Word64) (i : Instr), decode w = some i → encode i = w

/-- A word decodes to a request of a row exactly when `REQ & mask = match` of that row, and two rows never select one
word (30_encoding.md R82, with the table of R98). -/
def Obligations.DecoderFollowsTheOpcodeMap : Prop :=
  (∀ w : Word64, ∀ r ∈ opcodeRows, w &&& r.mask = r.pattern ↔ ∃ i, decode w = some i ∧ i.row = r) ∧
  (∀ w : Word64, decode w = none ↔ ∀ r ∈ opcodeRows, w &&& r.mask ≠ r.pattern) ∧
  opcodeRows.Pairwise (fun r q => ∀ w : Word64, ¬ (w &&& r.mask = r.pattern ∧ w &&& q.mask = q.pattern))

/-- Words written out from the opcode map decode to the requests they stand for, at least one per family, and a word
with a reserved bit set decodes to none (30_encoding.md R80, R98). -/
def Obligations.WrittenWordsDecode : Prop :=
  decode 0x0000000000000701 = some (.encCmd .singleShot true) ∧
  decode 0x0000000000002B10 = some (.configure .mps1Hz .avg8 true) ∧
  decode 0x0000005A00090021 = some (.writeUserReg 9 0x5A) ∧
  decode 0xC22000000000001B = some (.setLowLimit 0xC2200000) ∧
  decode 0x0000003200000130 = some (.eeCopyPage true 50) ∧
  decode 0x0000001400000034 = some (.waitConversion 20) ∧
  decode 0x0000000001000014 = none

/-- Every word the assembler writes is legal (30_encoding.md R100). -/
def Obligations.AssembledWordsAreLegal : Prop :=
  ∀ (line : String) (ws : List Word64), assemble line = some ws → ∀ w ∈ ws, legalWord w = true

/-- The requests of the pseudo-instruction CRC8: request `k` has the checksum of the first `k` bytes as accumulator
and the byte `k` as operand, and the value it returns is the checksum of the first `k + 1` bytes; there is one request
for each byte (30_encoding.md R101). -/
def Obligations.Crc8PseudoInstructionChainsAccumulators : Prop :=
  ∀ bs : List Byte, (crc8Requests bs).length = bs.length ∧
    ∀ (k : Nat) (b : Byte), bs[k]? = some b →
      (crc8Requests bs)[k]? = some (.crc8Upd (crc8 (bs.take k)) b) ∧
      crc8Update (crc8 (bs.take k)) b = crc8 (bs.take (k + 1))

/-! ### The sequencer -/

/-- A step runs the decoded instruction: in IDLE the word at the request port, if it is legal; a running request
otherwise. With no request at the port the step leaves the state as it is, which is the model's choice (log 4). -/
def Obligations.StepRunsTheDecodedInstruction : Prop :=
  (∀ s w ws i, s.phase = .idle → s.requests = w :: ws → decode w = some i → step s = exec i s) ∧
  (∀ s i pos, s.phase = .run i pos → step s = exec i s) ∧
  (∀ s, s.phase = .idle → s.requests = [] → step s = .next s)

/-- In IDLE a request is accepted: SEQ is at its start, the request has left the port, and nothing else of the block
changes but what the model clears with it, RSP_VALID (log 6) and the trace (log 13) (10_state.md R27, R31). -/
def Obligations.AcceptanceStartsTheRequest : Prop :=
  ∀ (i : Instr) (s : State), s.phase = .idle →
    exec i s = .next { s with
      phase := .run i .start, requests := s.requests.tail, rspValid := false, trace := [] }

/-- An illegal word is answered PARAMETER_ERROR with no primitive, and LAST_ERROR is the only block register it writes
(30_encoding.md R83). -/
def Obligations.IllegalWordIsParameterError : Prop :=
  ∀ s w ws, s.phase = .idle → s.requests = w :: ws → (∀ r ∈ opcodeRows, w &&& r.mask ≠ r.pattern) →
    steps 2 s = .next { responded s (errorResponse .parameterError) with
      requests := ws, trace := [], lastError := .parameterError }

/-- When its response is due, a request emits it: the response port holds it, SEQ is IDLE, nothing of WAIT and
EE_STATE survives, LAST_ERROR is updated unless the request is LAST_ERROR, and nothing else changes (10_state.md R27 to
R29, R31; 60_exceptions.md R222). -/
def Obligations.DueResponseIsEmitted : Prop :=
  ∀ (i : Instr) (r : Response) (s : State), s.phase = .run i (.respond r) →
    exec i s = .next { responded s r with
      lastError :=
        if i = .lastError then s.lastError
        else if r.status ≠ .ok then r.status
        else if r.chk = .mismatch then .integrityFailure
        else s.lastError }

/-- LAST_ERROR after any step: a step that emits a response records its failed status, or INTEGRITY_FAILURE for an OK
response with a bad checksum, unless the request is LAST_ERROR; every other step, and every success, leaves it; an
illegal word, whatever its opcode, is recorded as PARAMETER_ERROR; no step sets it back to NONE, and reset does
(60_exceptions.md R222). -/
def Obligations.LastErrorFollowsTheEmittedResponse : Prop :=
  (∀ s t, step s = .next t → s.phase ≠ .idle → t.phase = .idle →
    t.lastError =
      match s.phase with
      | .run .lastError _ => s.lastError
      | _ =>
        if t.rsp.status ≠ .ok then t.rsp.status
        else if t.rsp.chk = .mismatch then .integrityFailure
        else s.lastError) ∧
  (∀ s t, step s = .next t → (s.phase = .idle ∨ t.phase ≠ .idle) → t.lastError = s.lastError) ∧
  (∀ s op, s.phase = .runIllegal op → ∃ t, step s = .next t ∧ t.lastError = .parameterError) ∧
  (∀ s t, step s = .next t → t.lastError = .ok → s.lastError = .ok) ∧
  State.reset.lastError = .ok

/-- The invariant of the sequencer holds after reset (10_state.md R25, R27 to R29; 70_reset_and_hazards.md R250). That
the response record after reset is well formed is the model's choice of its value, all fields 0, for which R250 gives
none (log 7). -/
def Obligations.SequencerInvariantHoldsAtReset : Prop := WellPhased State.reset

/-- Every step keeps the invariant of the sequencer: position, WAIT, EE_STATE, the transfers performed and the response
belong together (10_state.md R25, R27 to R29; 20_memory.md R65; 42_wait_eeprom.md R191; 30_encoding.md R84, R85). -/
def Obligations.StepKeepsTheSequencerInvariant : Prop :=
  ∀ s t, WellPhased s → step s = .next t → WellPhased t

/-- The block never traps: in a state of the invariant, when the environment keeps its contract, a step has a next
state (60_exceptions.md R221; 20_memory.md R61). Where no request is at the port or the list of answers is exhausted,
SEQ has no step (R61); that the model then takes a step which changes nothing is the model's choice (log 4). -/
def Obligations.StepNeverStopsUnderTheTransferContract : Prop :=
  ∀ s, WellPhased s → NextAnswerFits s → ∃ t, step s = .next t

/-- A step of a running request performs exactly the primitive of its position, takes exactly one answer and records
exactly one event (00_scope.md R6, R10; 20_memory.md R69; 10_state.md R27). -/
def Obligations.StepPerformsThePrimitiveOfItsPosition : Prop :=
  ∀ s t i pos p a rest, s.phase = .run i pos → PosFits i pos = true → primitiveAt i s pos = some p →
    s.answers = a :: rest → step s = .next t →
    ∃ e, p.event? a = some e ∧ t.answers = rest ∧ t.trace = s.trace ++ [e] ∧ ∃ q, t.phase = .run i q

/-- A primitive that is never answered leaves the request where it is (20_memory.md R61; 60_exceptions.md R226;
93_implementation_defined.md I11); that this is a step which changes nothing is the model's choice (log 4). -/
def Obligations.UnansweredPrimitiveLeavesTheStateUnchanged : Prop :=
  ∀ s i pos p, WellPhased s → s.phase = .run i pos → primitiveAt i s pos = some p → s.answers = [] →
    step s = .next s

/-- SEQ takes a request from the port only in IDLE, and then exactly one (10_state.md R31). -/
def Obligations.RequestsAreTakenOnlyInIdle : Prop :=
  (∀ s t, step s = .next t → s.phase ≠ .idle → t.requests = s.requests) ∧
  (∀ s t, step s = .next t → s.phase = .idle → t.requests = s.requests.tail)

/-- Every transfer of a run of a request is in its row of the table, in the row's order, followed by polls only if it
waits; every address a transfer reaches is one the table uses; a transfer that fails is the last event of its request;
and a request whose operands are refused performs nothing (20_memory.md R65). -/
def Obligations.TransfersAreThoseOfTheTable : Prop :=
  ∀ n s t i, WellPhased s → s.phase = .run i .start → steps n s = .next t → (∃ pos, t.phase = .run i pos) →
    (∃ k, transfers t.trace <+: transfersWith i k) ∧
    (∀ x ∈ transfers t.trace, ∀ a ∈ x.addresses, usedAddress a = true) ∧
    (∀ before e later, t.trace = before ++ e :: later → e.failed = true → later = []) ∧
    (i.operandsInRange = false → t.trace = [])

/-! ### The block registers -/

/-- Reset puts every piece of block state in its value: both mirrors invalid and 0, LAST_ERROR NONE, BUS_ADDR the
parameter, SEQ_PHASE IDLE, WAIT absent, EE_STATE IDLE, no response pending; and so does the reset of any block, which
is the model's own function (log 18). The parameters after reset keep the constraint on the EEPROM codes
(70_reset_and_hazards.md R250; 00_scope.md R7). -/
def Obligations.ResetValues : Prop :=
  (∀ s : State, s = State.reset ∨ (∃ u : State, s = u.blockReset) →
    s.cfg = ⟨false, 0, 0, false⟩ ∧ s.mode = ⟨false, 0⟩ ∧ s.lastError = .ok ∧ s.busAddr = s.params.busAddr ∧
    s.phase = .idle ∧ s.wait = none ∧ s.ee = .idle ∧ s.rspValid = false) ∧
  State.reset.params.admissible = true

/-- CFG_MIRROR changes only when CONFIGURE's write answers OK, and then holds the request's fields (10_state.md
R22). -/
def Obligations.CfgMirrorIsWrittenOnlyByConfigure : Prop :=
  (∀ s t rate avg slp rest, s.phase = .run (.configure rate avg slp) .start → s.answers = .written true :: rest →
    step s = .next t → t.cfg = ⟨true, rate.code, avg.code, slp⟩) ∧
  (∀ s t, step s = .next t → t.cfg ≠ s.cfg →
    ∃ rate avg slp rest, s.phase = .run (.configure rate avg slp) .start ∧ s.answers = .written true :: rest)

/-- MODE_MIRROR changes only when the COMMAND write of SET_MODE or of SINGLE_SHOT's trigger answers OK, and then holds
the requested mode; no step's result but MODE_MIRROR itself depends on it (10_state.md R23). -/
def Obligations.ModeMirrorIsWrittenOnlyByTriggers : Prop :=
  (∀ s t mode heat rest, s.phase = .run (.setMode mode heat) .start → s.answers = .written true :: rest →
    step s = .next t → t.mode = ⟨true, mode.code⟩) ∧
  (∀ s t rest, s.phase = .run .singleShot .start → s.answers = .written true :: rest →
    step s = .next t → t.mode = ⟨true, 0b11⟩) ∧
  (∀ s t, step s = .next t → t.mode ≠ s.mode →
    ((∃ mode heat, s.phase = .run (.setMode mode heat) .start) ∨ s.phase = .run .singleShot .start) ∧
    ∃ rest, s.answers = .written true :: rest) ∧
  (∀ s t m, step s = .next t → ∃ m', step { s with mode := m } = .next { t with mode := m' })

/-- BUS_ADDR is the parameter after reset, no step changes it or the parameters, and no step depends on it
(10_state.md R25). -/
def Obligations.BusAddrIsConstantAndHasNoEffect : Prop :=
  State.reset.busAddr = State.reset.params.busAddr ∧
  (∀ s t, step s = .next t → t.busAddr = s.busAddr ∧ t.params = s.params) ∧
  (∀ s t b, step s = .next t → step { s with busAddr := b } = .next { t with busAddr := b })

/-! ### Codec requests -/

/-- ENC_CMD and DEC_CMD, each on every operand, with nothing but the response changed (40_codec.md R111 to R114). -/
def Obligations.CommandCodecRequests : Prop :=
  (∀ s mode heat, s.phase = .run (.encCmd mode heat) .start →
    exec (.encCmd mode heat) s = .next (responded s
      (okResponse (BitVec.ofNat 32 (64 * mode.code.toNat + if heat then 10 else 0)) [] .notChecked))) ∧
  (∀ s byte, s.phase = .run (.decCmd byte) .start →
    exec (.decCmd byte) s = .next (responded s
      (okResponse (BitVec.ofNat 32 (byte.toNat / 64 + if byte.toNat % 16 = 10 then 4 else 0)) [] .notChecked)))

/-- ENC_CFG and DEC_CFG, each on every operand, with nothing but the response changed (40_codec.md R115 to R118). -/
def Obligations.ConfigCodecRequests : Prop :=
  (∀ s rate avg slp, s.phase = .run (.encCfg rate avg slp) .start →
    exec (.encCfg rate avg slp) s = .next (responded s
      (okResponse (BitVec.ofNat 32 (32 * rate.code.toNat + 8 * avg.code.toNat + slp.toNat)) [] .notChecked))) ∧
  (∀ s byte, s.phase = .run (.decCfg byte) .start →
    exec (.decCfg byte) s = .next (responded s
      (okResponse (BitVec.ofNat 32 (byte.toNat / 32 + 8 * (byte.toNat / 8 % 4) + 32 * (byte.toNat % 2))) []
        .notChecked)))

/-- DEC_STATUS drops bits 1:0 and keeps each flag at its register bit; DEC_RAW reads the little-endian pair as a signed
16-bit number and extends its sign (40_codec.md R119, R120, R125, R126). -/
def Obligations.StatusAndRawCodecRequests : Prop :=
  (∀ s byte, s.phase = .run (.decStatus byte) .start →
    exec (.decStatus byte) s = .next (responded s
      (okResponse (BitVec.ofNat 32 (4 * (byte.toNat / 4))) [] .notChecked))) ∧
  (∀ b : Byte, snapshotByte b =
    BitVec.ofBool (decodeStatus b).alertHigh ++ (BitVec.ofBool (decodeStatus b).alertLow ++
      (BitVec.ofBool (decodeStatus b).busy ++ (BitVec.ofBool (decodeStatus b).eeBusy ++
        (BitVec.ofBool (decodeStatus b).heaterOn ++ (BitVec.ofBool (decodeStatus b).thMisconf ++ 0#2)))))) ∧
  (∀ s lsb msb, s.phase = .run (.decRaw lsb msb) .start →
    exec (.decRaw lsb msb) s = .next (responded s
      (okResponse (BitVec.ofInt 32
        (if 128 ≤ msb.toNat then 256 * (msb.toNat : Int) + lsb.toNat - 65536 else 256 * (msb.toNat : Int) + lsb.toNat))
        [] .notChecked)))

/-- ENC_ALERT and DEC_ALERT, for every value of the two level parameters (40_codec.md R121 to R124). -/
def Obligations.AlertCodecRequests : Prop :=
  (∀ s enabled mode, s.phase = .run (.encAlert enabled mode) .start →
    exec (.encAlert enabled mode) s = .next (responded s
      (okResponse (BitVec.ofNat 32
        (128 * (if enabled then s.params.alertEnLevel.toNat else 1 - s.params.alertEnLevel.toNat) +
          64 * (if mode = .highAlarmLowAlarm then s.params.alertHalaLevel.toNat
            else 1 - s.params.alertHalaLevel.toNat))) [] .notChecked))) ∧
  (∀ s byte, s.phase = .run (.decAlert byte) .start →
    exec (.decAlert byte) s = .next (responded s
      (okResponse (BitVec.ofNat 32
        ((if byte.toNat / 128 = s.params.alertEnLevel.toNat then 1 else 0) +
          (if byte.toNat / 64 % 2 = s.params.alertHalaLevel.toNat then 2 else 0))) [] .notChecked)))

/-- RAW_TO_C: the binary32 word whose exact value is `(raw + 6400) / 256`, +0.0 for raw -6400, never infinite, never a
NaN, never subnormal (40_codec.md R127, R128). -/
def Obligations.RawToCelsiusRequestIsExact : Prop :=
  ∀ s raw, s.phase = .run (.rawToC raw) .start →
    ∃ v, exec (.rawToC raw) s = .next (responded s (okResponse v [] .notChecked)) ∧
      f32Exponent v ≠ 255 ∧ (f32Exact v : ℚ) / 2 ^ 149 = ((raw.toInt : ℚ) + 6400) / 256 ∧
      (raw.toInt = -6400 → v = 0) ∧ (raw.toInt ≠ -6400 → f32Exponent v ≠ 0)

/-- C_TO_RAW: PARAMETER_ERROR for every NaN, saturation of the infinities, and else the exact rational
`(c - 25) * 256` rounded half away from zero once and saturated (40_codec.md R129, R130). -/
def Obligations.CelsiusToRawRequestRoundsOnceAndSaturates : Prop :=
  ∀ s c, s.phase = .run (.cToRaw c) .start →
    (0x7F800000 < c.toNat % 2 ^ 31 →
      exec (.cToRaw c) s = .next { responded s (errorResponse .parameterError) with lastError := .parameterError }) ∧
    (c = 0x7F800000 → exec (.cToRaw c) s = .next (responded s (okResponse 0x00007FFF [] .notChecked))) ∧
    (c = 0xFF800000 → exec (.cToRaw c) s = .next (responded s (okResponse 0xFFFF8000 [] .notChecked))) ∧
    (c.toNat % 2 ^ 31 < 0x7F800000 → ∀ x : ℚ, x = ((f32Exact c : ℚ) / 2 ^ 149 - 25) * 256 →
      exec (.cToRaw c) s = .next (responded s
        (okResponse (BitVec.ofInt 32
          (min 32767 (max (-32768) (if x < 0 then -⌊-x + 1 / 2⌋ else ⌊x + 1 / 2⌋)))) [] .notChecked)))

/-- CRC8_UPD: eight rounds of shift and conditional addition of 0x31 on `acc XOR byte`, so the result depends on that
sum alone (40_codec.md R131, R133). -/
def Obligations.CrcUpdateRequest : Prop :=
  (∀ s acc byte, s.phase = .run (.crc8Upd acc byte) .start →
    exec (.crc8Upd acc byte) s = .next (responded s
      (okResponse (BitVec.ofNat 32
        ((fun r : Nat => if 128 ≤ r then (2 * r % 256) ^^^ 0x31 else 2 * r % 256)^[8] (acc.toNat ^^^ byte.toNat)))
        [] .notChecked))) ∧
  (∀ acc b : Byte, crc8Update acc b = crc8Update 0 (acc ^^^ b))

/-! ### Laws of the codec -/

/-- Every raw temperature survives conversion to Celsius and back (40_codec.md R136, law 1). -/
def Obligations.RawTemperatureRoundTrip : Prop := ∀ raw : Word16, celsiusToRaw (rawToCelsius raw) = some raw

/-- Every Celsius value on the 1/256 grid from -54.0 to 124.5 survives conversion to raw and back exactly
(40_codec.md R136, law 2). -/
def Obligations.GridCelsiusRoundTrip : Prop :=
  ∀ (c : Word32) (k : Int), f32Exponent c ≠ 255 → (f32Exact c : ℚ) / 2 ^ 149 = (k : ℚ) / 256 →
    -13824 ≤ k → k ≤ 31872 →
    ∃ raw, celsiusToRaw c = some raw ∧ f32Exact (rawToCelsius raw) = f32Exact c

/-- The conversion to raw never wraps: it is monotone in the Celsius value (40_codec.md R129, R136). -/
def Obligations.CelsiusToRawIsMonotone : Prop :=
  ∀ (c d : Word32) (x y : Word16), f32Exponent c ≠ 255 → f32Exponent d ≠ 255 → f32Exact c ≤ f32Exact d →
    celsiusToRaw c = some x → celsiusToRaw d = some y → x.toInt ≤ y.toInt

/-- The checksum is linear on sequences of equal length; a sequence followed by its checksum has checksum 0, and so
has any number of 0 bytes (40_codec.md R136, laws 3, 4 and 6). -/
def Obligations.ChecksumIsLinearAndCancels : Prop :=
  (∀ a b : List Byte, a.length = b.length → crc8 (List.zipWith (· ^^^ ·) a b) = crc8 a ^^^ crc8 b) ∧
  (∀ s : List Byte, crc8 (s ++ [crc8 s]) = 0) ∧ (∀ n : Nat, crc8 (List.replicate n 0) = 0)

/-- Flipping any single bit of a sequence changes its checksum (40_codec.md R136, law 5, here for every length). -/
def Obligations.ChecksumDetectsEverySingleBitFlip : Prop :=
  ∀ (before later : List Byte) (b : Byte) (k : Nat), k < 8 →
    crc8 (before ++ (b ^^^ (1#8 <<< k)) :: later) ≠ crc8 (before ++ b :: later)

/-- Each register encoder is undone by its decoder: command, configuration, alert for every parameter, raw pair
(40_codec.md R114, R118, R123, R135). -/
def Obligations.RegisterDecodersUndoEncoders : Prop :=
  (∀ m h, decodeCommand (encodeCommand m h) = (m, h)) ∧
  (∀ r a s, decodeConfig (encodeConfig r a s) = (r, a, s)) ∧
  (∀ p e m, decodeAlert p (encodeAlert p e m) = (e, m)) ∧
  (∀ raw : Word16, ∃ lsb msb, encodeRawPair raw = [lsb, msb] ∧ decodeRawTemperature lsb msb = raw)

/-- The packed response has each field at its place (30_encoding.md R84). -/
def Obligations.PackedResponseLayout : Prop :=
  ∀ r : Response, r.wellFormed = true →
    r.pack.extractLsb' 0 3 = r.status.code ∧ r.pack.extractLsb' 3 2 = r.chk.code ∧
    r.pack.getLsbD 5 = r.valid ∧ r.pack.extractLsb' 6 2 = 0 ∧
    (r.pack.extractLsb' 8 4).toNat = r.data.length ∧ r.pack.extractLsb' 12 4 = 0 ∧
    r.pack.extractLsb' 16 32 = r.value ∧
    ∀ k, k < 10 → r.pack.extractLsb' (48 + 8 * k) 8 = r.data.getD k 0

/-! ### Session requests -/

/-- CONFIGURE: one write of the packed byte to 0x05; on OK the mirror holds the request's fields and the response the
byte; on FAIL the mirror is unchanged (41_session.md R143). -/
def Obligations.ConfigureWritesConfigThenMirror : Prop :=
  ∀ s rate avg slp, s.phase = .run (.configure rate avg slp) .start →
    ∀ b : Byte, b.toNat = 32 * rate.code.toNat + 8 * avg.code.toNat + slp.toNat →
      (∀ rest, s.answers = .written true :: rest →
        exec (.configure rate avg slp) s = .next
          { after s (.configure rate avg slp) rest (.memWrite 0x05 [b] true)
              (.respond (okResponse (b.setWidth 32) [] .notChecked)) with
            cfg := ⟨true, rate.code, avg.code, slp⟩ }) ∧
      WriteRaises (.configure rate avg slp) s 0x05 [b]

/-- SET_MODE: one write of the packed byte to 0x04, bits 5:4 zero; on OK the mode mirror holds the mode and the
response the byte; on FAIL the mirror is unchanged (41_session.md R144). -/
def Obligations.SetModeWritesCommandThenMirror : Prop :=
  ∀ s mode heat, s.phase = .run (.setMode mode heat) .start →
    ∀ b : Byte, b.toNat = (64 * mode.code.toNat + if heat then 10 else 0) →
      (∀ rest, s.answers = .written true :: rest →
        exec (.setMode mode heat) s = .next
          { after s (.setMode mode heat) rest (.memWrite 0x04 [b] true)
              (.respond (okResponse (b.setWidth 32) [] .notChecked)) with
            mode := ⟨true, mode.code⟩ }) ∧
      WriteRaises (.setMode mode heat) s 0x04 [b]

/-- The guard delay: 4, 7, 10 or 18 ms by the mirrored averaging code, 18 ms while the mirror is invalid
(41_session.md R145). -/
def Obligations.GuardDelayFollowsTheMirror : Prop :=
  ∀ cfg : CfgMirror,
    latency cfg = if cfg.valid then (if cfg.avg = 0 then 4 else if cfg.avg = 1 then 7 else if cfg.avg = 2 then 10 else 18)
      else 18

/-- READ_TEMP: with `wait` it sleeps the guard delay first; then one read of 2 or 3 bytes from 0x00; the response has
the converted value and both bytes, and with `verify` the checksum flag, a mismatch being no failure (41_session.md
R146). -/
def Obligations.ReadTempSleepsReadsAndConverts : Prop :=
  (∀ s checked rest, s.phase = .run (.readTemp true checked) .start → s.answers = .slept :: rest →
    exec (.readTemp true checked) s =
      .next (after s (.readTemp true checked) rest (.sleep (latency s.cfg)) .delayed)) ∧
  (∀ s wait lsb msb rest, s.phase = .run (.readTemp wait false) (if wait then .delayed else .start) →
    s.answers = .read (.bytes [lsb, msb]) :: rest →
    exec (.readTemp wait false) s = .next (after s (.readTemp wait false) rest (.memRead 0x00 2 (.bytes [lsb, msb]))
      (.respond (okResponse (rawToCelsius (msb ++ lsb)) [lsb, msb] .notChecked)))) ∧
  (∀ s wait lsb msb crc rest, s.phase = .run (.readTemp wait true) (if wait then .delayed else .start) →
    s.answers = .read (.bytes [lsb, msb, crc]) :: rest →
    exec (.readTemp wait true) s = .next (after s (.readTemp wait true) rest (.memRead 0x00 3 (.bytes [lsb, msb, crc]))
      (.respond (okResponse (rawToCelsius (msb ++ lsb)) [lsb, msb]
        (if crc8 [lsb, msb] = crc then .matched else .mismatch))))) ∧
  (∀ s wait checked, s.phase = .run (.readTemp wait checked) (if wait then .delayed else .start) →
    ReadRaises (.readTemp wait checked) s 0x00 (if checked then 3 else 2))

/-- SINGLE_SHOT: the trigger write of 0xC0 to 0x04, MODE_MIRROR on OK, the guard delay, one read of 3 bytes; a checksum
mismatch is the status INTEGRITY_FAILURE with no value (41_session.md R147). -/
def Obligations.SingleShotTriggersSleepsAndVerifies : Prop :=
  (∀ s, s.phase = .run .singleShot .start →
    (∀ rest, s.answers = .written true :: rest →
      exec .singleShot s = .next { after s .singleShot rest (.memWrite 0x04 [0xC0] true) .triggered with
        mode := ⟨true, 0b11⟩ }) ∧
    WriteRaises .singleShot s 0x04 [0xC0]) ∧
  (∀ s rest, s.phase = .run .singleShot .triggered → s.answers = .slept :: rest →
    exec .singleShot s = .next (after s .singleShot rest (.sleep (latency s.cfg)) .delayed)) ∧
  (∀ s, s.phase = .run .singleShot .delayed →
    (∀ lsb msb crc rest, s.answers = .read (.bytes [lsb, msb, crc]) :: rest →
      exec .singleShot s = .next (after s .singleShot rest (.memRead 0x00 3 (.bytes [lsb, msb, crc]))
        (.respond (if crc8 [lsb, msb] = crc then okResponse (rawToCelsius (msb ++ lsb)) [lsb, msb] .matched
          else ⟨.integrityFailure, .mismatch, false, 0, []⟩)))) ∧
    ReadRaises .singleShot s 0x00 3)

/-- A whole SINGLE_SHOT request from IDLE, in five steps: acceptance, three primitives, emission. The block is IDLE
again, both the mirror and the response are those of R147, and LAST_ERROR follows R222 (41_session.md R147;
00_scope.md R6). -/
def Obligations.WholeSingleShotRequest : Prop :=
  ∀ s ws lsb msb crc rest, WellPhased s → s.phase = .idle → s.requests = 0x0000000000000013 :: ws →
    s.answers = .written true :: .slept :: .read (.bytes [lsb, msb, crc]) :: rest →
    steps 5 s = .next { s with
      phase := .idle, requests := ws, answers := rest, mode := ⟨true, 0b11⟩, rspValid := true,
      trace := [.memWrite 0x04 [0xC0] true, .sleep (latency s.cfg), .memRead 0x00 3 (.bytes [lsb, msb, crc])],
      rsp := if crc8 [lsb, msb] = crc then okResponse (rawToCelsius (msb ++ lsb)) [lsb, msb] .matched
        else ⟨.integrityFailure, .mismatch, false, 0, []⟩,
      lastError := if crc8 [lsb, msb] = crc then s.lastError else .integrityFailure }

/-- READ_STATUS: one read of 0x03; bits 1:0 are dropped from the value and kept in the data (41_session.md R148). -/
def Obligations.ReadStatusReturnsTheSnapshot : Prop :=
  ∀ s, s.phase = .run .readStatus .start →
    (∀ b rest, s.answers = .read (.bytes [b]) :: rest →
      exec .readStatus s = .next (after s .readStatus rest (.memRead 0x03 1 (.bytes [b]))
        (.respond (okResponse (BitVec.ofNat 32 (4 * (b.toNat / 4))) [b] .notChecked)))) ∧
    ReadRaises .readStatus s 0x03 1

/-- IS_BUSY: busy is conversion-busy or EEPROM-busy, and a failed or short read still reads busy, under its failed
status (41_session.md R149). -/
def Obligations.IsBusyIsConservative : Prop :=
  ∀ s, s.phase = .run .isBusy .start →
    (∀ b rest, s.answers = .read (.bytes [b]) :: rest →
      exec .isBusy s = .next (after s .isBusy rest (.memRead 0x03 1 (.bytes [b]))
        (.respond (okResponse (if b.getLsbD 5 = true ∨ b.getLsbD 4 = true then 1 else 0) [b] .notChecked)))) ∧
    (∀ rest, s.answers = .read .fail :: rest →
      exec .isBusy s = .next (after s .isBusy rest (.memRead 0x03 1 .fail)
        (.respond ⟨.transportFailure, .notChecked, true, 1, []⟩))) ∧
    (∀ rest, s.answers = .read (.bytes []) :: rest →
      exec .isBusy s = .next (after s .isBusy rest (.memRead 0x03 1 (.bytes []))
        (.respond ⟨.incompleteRead, .notChecked, true, 1, []⟩)))

/-- HEATER_ON and HEATER_OFF: one read of 0x04, then one write of the byte read with its upper nibble kept and the
heater nibble 1010 or 0000; MODE_MIRROR is not written (41_session.md R150, R151). -/
def Obligations.HeaterRequestsKeepTheUpperNibble : Prop :=
  ∀ (s : State) (i : Instr) (nibble : Nat), (i = .heaterOn ∧ nibble = 10 ∨ i = .heaterOff ∧ nibble = 0) →
    (s.phase = .run i .start →
      (∀ b rest, s.answers = .read (.bytes [b]) :: rest →
        exec i s = .next (after s i rest (.memRead 0x04 1 (.bytes [b])) (.commandRead b))) ∧
      ReadRaises i s 0x04 1) ∧
    (∀ b c : Byte, s.phase = .run i (.commandRead b) → c.toNat = b.toNat / 16 * 16 + nibble →
      (∀ rest, s.answers = .written true :: rest →
        exec i s = .next (after s i rest (.memWrite 0x04 [c] true)
          (.respond (okResponse (c.setWidth 32) [] .notChecked)))) ∧
      WriteRaises i s 0x04 [c])

/-- SET_ALERT_MODE: one plain write of the packed byte to 0x06, for every value of the level parameters; SET_PARASITIC:
one write of 0x0A or 0x00 to 0x63 (41_session.md R152, R164). -/
def Obligations.AlertAndParasiticWrites : Prop :=
  (∀ s enabled mode, s.phase = .run (.setAlertMode enabled mode) .start →
    ∀ b : Byte, b.toNat =
        128 * (if enabled then s.params.alertEnLevel.toNat else 1 - s.params.alertEnLevel.toNat) +
        64 * (if mode = .highAlarmLowAlarm then s.params.alertHalaLevel.toNat else 1 - s.params.alertHalaLevel.toNat) →
      (∀ rest, s.answers = .written true :: rest →
        exec (.setAlertMode enabled mode) s = .next (after s (.setAlertMode enabled mode) rest (.memWrite 0x06 [b] true)
          (.respond (okResponse (b.setWidth 32) [] .notChecked)))) ∧
      WriteRaises (.setAlertMode enabled mode) s 0x06 [b]) ∧
  (∀ s enabled, s.phase = .run (.setParasitic enabled) .start →
    ∀ b : Byte, b = (if enabled then 0x0A else 0x00) →
      (∀ rest, s.answers = .written true :: rest →
        exec (.setParasitic enabled) s = .next (after s (.setParasitic enabled) rest (.memWrite 0x63 [b] true)
          (.respond (okResponse (b.setWidth 32) [] .notChecked)))) ∧
      WriteRaises (.setParasitic enabled) s 0x63 [b])

/-- GET_ALERT_MODE: one read of 0x06; bit 7 and bit 6 are compared with the level parameters, bits 5:0 do not matter
(41_session.md R153). -/
def Obligations.GetAlertModeDecodesByTheParameters : Prop :=
  ∀ s, s.phase = .run .getAlertMode .start →
    (∀ b rest, s.answers = .read (.bytes [b]) :: rest →
      exec .getAlertMode s = .next (after s .getAlertMode rest (.memRead 0x06 1 (.bytes [b]))
        (.respond (okResponse (BitVec.ofNat 32
          ((if b.toNat / 128 = s.params.alertEnLevel.toNat then 1 else 0) +
            (if b.toNat / 64 % 2 = s.params.alertHalaLevel.toNat then 2 else 0))) [b] .notChecked)))) ∧
    ReadRaises .getAlertMode s 0x06 1

/-- SET_HIGH_LIMIT and SET_LOW_LIMIT: PARAMETER_ERROR for a NaN with no transfer; else one 2-byte write, LSB first, of
the converted threshold to 0x07 or 0x09, the response holding it sign-extended (41_session.md R154, R155). -/
def Obligations.LimitWritesAreOneLittleEndianTransfer : Prop :=
  ∀ (s : State) (c : Word32) (i : Instr) (addr : Byte),
    (i = .setHighLimit c ∧ addr = 0x07 ∨ i = .setLowLimit c ∧ addr = 0x09) → s.phase = .run i .start →
    (0x7F800000 < c.toNat % 2 ^ 31 →
      exec i s = .next { responded s (errorResponse .parameterError) with lastError := .parameterError }) ∧
    (c.toNat % 2 ^ 31 ≤ 0x7F800000 → ∃ lsb msb, celsiusToRaw c = some (msb ++ lsb) ∧
      (∀ rest, s.answers = .written true :: rest →
        exec i s = .next (after s i rest (.memWrite addr [lsb, msb] true)
          (.respond (okResponse ((msb ++ lsb : Word16).signExtend 32) [] .notChecked)))) ∧
      WriteRaises i s addr [lsb, msb])

/-- GET_HIGH_LIMIT and GET_LOW_LIMIT: one 2-byte read at 0x07 or 0x09, the little-endian pair converted
(41_session.md R156, R157). -/
def Obligations.LimitReadsConvertTheLittleEndianPair : Prop :=
  ∀ (s : State) (i : Instr) (addr : Byte), (i = .getHighLimit ∧ addr = 0x07 ∨ i = .getLowLimit ∧ addr = 0x09) →
    s.phase = .run i .start →
    (∀ lsb msb rest, s.answers = .read (.bytes [lsb, msb]) :: rest →
      exec i s = .next (after s i rest (.memRead addr 2 (.bytes [lsb, msb]))
        (.respond (okResponse (rawToCelsius (msb ++ lsb)) [lsb, msb] .notChecked)))) ∧
    ReadRaises i s addr 2

/-- READ_DEVICE_ID: one 2-byte read at 0x18, unsigned little-endian; READ_ROM_CODE: one 5-byte read at 0x1A, the bytes
in address order and value 0 (41_session.md R158, R159). -/
def Obligations.IdentificationReads : Prop :=
  (∀ s, s.phase = .run .readDeviceId .start →
    (∀ lsb msb rest, s.answers = .read (.bytes [lsb, msb]) :: rest →
      exec .readDeviceId s = .next (after s .readDeviceId rest (.memRead 0x18 2 (.bytes [lsb, msb]))
        (.respond (okResponse (BitVec.ofNat 32 (256 * msb.toNat + lsb.toNat)) [lsb, msb] .notChecked)))) ∧
    ReadRaises .readDeviceId s 0x18 2) ∧
  (∀ s, s.phase = .run .readRomCode .start →
    (∀ bs rest, bs.length = 5 → s.answers = .read (.bytes bs) :: rest →
      exec .readRomCode s = .next (after s .readRomCode rest (.memRead 0x1A 5 (.bytes bs))
        (.respond (okResponse 0 bs .notChecked)))) ∧
    ReadRaises .readRomCode s 0x1A 5)

/-- READ_USER_REG and WRITE_USER_REG: an index above 9 is PARAMETER_ERROR with no transfer; an index up to 9 is one
1-byte transfer at 0x0C + index (41_session.md R160, R161). -/
def Obligations.UserRegisterAccess : Prop :=
  (∀ s index, s.phase = .run (.readUserReg index) .start →
    (9 < index.toNat → exec (.readUserReg index) s =
      .next { responded s (errorResponse .parameterError) with lastError := .parameterError }) ∧
    (index.toNat ≤ 9 →
      (∀ b rest, s.answers = .read (.bytes [b]) :: rest →
        exec (.readUserReg index) s = .next (after s (.readUserReg index) rest
          (.memRead (BitVec.ofNat 8 (12 + index.toNat)) 1 (.bytes [b]))
          (.respond (okResponse (b.setWidth 32) [b] .notChecked)))) ∧
      ReadRaises (.readUserReg index) s (BitVec.ofNat 8 (12 + index.toNat)) 1)) ∧
  (∀ s index value, s.phase = .run (.writeUserReg index value) .start →
    (9 < index.toNat → exec (.writeUserReg index value) s =
      .next { responded s (errorResponse .parameterError) with lastError := .parameterError }) ∧
    (index.toNat ≤ 9 →
      (∀ rest, s.answers = .written true :: rest →
        exec (.writeUserReg index value) s = .next (after s (.writeUserReg index value) rest
          (.memWrite (BitVec.ofNat 8 (12 + index.toNat)) [value] true)
          (.respond (okResponse (value.setWidth 32) [] .notChecked)))) ∧
      WriteRaises (.writeUserReg index value) s (BitVec.ofNat 8 (12 + index.toNat)) [value]))

/-- READ_SCRATCH and READ_SCRATCH_EXT: one read of 9 bytes at 0x03 or 11 bytes at 0x0C; the data bytes unmodified, the
value the received checksum below the computed one, the flag their equality, and status OK either way (41_session.md
R162, R163). -/
def Obligations.ScratchReadsReportTheChecksum : Prop :=
  ∀ (s : State) (i : Instr) (addr : Byte) (n : Nat),
    (i = .readScratch ∧ addr = 0x03 ∧ n = 8 ∨ i = .readScratchExt ∧ addr = 0x0C ∧ n = 10) →
    s.phase = .run i .start →
    (∀ bs crc rest, bs.length = n → s.answers = .read (.bytes (bs ++ [crc])) :: rest →
      exec i s = .next (after s i rest (.memRead addr (n + 1) (.bytes (bs ++ [crc])))
        (.respond (okResponse (BitVec.ofNat 32 (crc.toNat + 256 * (crc8 bs).toNat)) bs
          (if crc8 bs = crc then .matched else .mismatch))))) ∧
    ReadRaises i s addr (n + 1)

/-- LAST_ERROR: the numeric code of the last failure, which stays as it is (41_session.md R165; the codes of
60_exceptions.md R220). -/
def Obligations.LastErrorIsReadUnchanged : Prop :=
  ∀ s, s.phase = .run .lastError .start →
    exec .lastError s = .next (responded s (okResponse
      (match s.lastError with
        | .ok => 0
        | .transportFailure => 1
        | .incompleteRead => 2
        | .parameterError => 3
        | .timeout => 4
        | .integrityFailure => 5) [] .notChecked))

/-! ### EEPROM and wait requests -/

/-- EE_COPY_PAGE, EE_RECALL_PAGE, EE_FULL_RECALL, EE_SOFT_RESET: one write of the request's code to 0x17; on FAIL
TRANSPORT_FAILURE with EE_STATE IDLE; on OK without `wait` the code is the result and EE_STATE is DONE; with `wait` the
wait begins and EE_STATE is POLLING. No mirror is written (42_wait_eeprom.md R195 to R199). -/
def Obligations.EepromCommandIsSent : Prop :=
  ∀ (s : State) (i : Instr) (code : Byte), eeCode s.params i = some code → s.phase = .run i .start →
    (∀ rest, s.answers = .written true :: rest →
      exec i s = .next (if (waitOf i).isSome then
          { after s i rest (.memWrite 0x17 [code] true) .waitEnter with ee := .polling }
        else
          { after s i rest (.memWrite 0x17 [code] true)
              (.respond (okResponse (code.setWidth 32) [] .notChecked)) with ee := .done })) ∧
    (∀ rest, s.answers = .written false :: rest →
      exec i s = .next { after s i rest (.memWrite 0x17 [code] false)
        (.respond (errorResponse .transportFailure)) with ee := .idle })

/-- A waiting request enters its wait with one clock reading: WAIT is POLLING from that time, with the request's
timeout and busy bit (42_wait_eeprom.md R190). -/
def Obligations.WaitEntryRecordsTheStart : Prop :=
  ∀ s i bit timeout t0 rest, waitOf i = some (bit, timeout) → s.phase = .run i (waitEntry i) →
    s.answers = .time t0 :: rest →
    exec i s = .next { after s i rest (.now t0) .waitPoll with wait := some ⟨.polling, t0, timeout, bit⟩ }

/-- One poll of a wait, in its order: a failed or short status read ends it in TRANSPORT_ERROR; a clear busy bit ends
it in READY, whatever the time, with the last status byte in the response and EE_STATE DONE for an EEPROM request; a
set bit leads to the timeout test, strict and on the truncated difference, which ends it in TIMED_OUT or leads to a
sleep of 1 ms and the next poll (42_wait_eeprom.md R190, R191, R192). -/
def Obligations.WaitPollsInOrder : Prop :=
  ∀ s i bit timeout w, waitOf i = some (bit, timeout) → s.wait = some w →
    (s.phase = .run i .waitPoll →
      (∀ rest, s.answers = .read .fail :: rest →
        exec i s = .next { after s i rest (.memRead 0x03 1 .fail) (.respond (errorResponse .transportFailure)) with
          wait := some { w with state := .transportError } }) ∧
      (∀ rest, s.answers = .read (.bytes []) :: rest →
        exec i s = .next { after s i rest (.memRead 0x03 1 (.bytes [])) (.respond (errorResponse .incompleteRead)) with
          wait := some { w with state := .transportError } }) ∧
      (∀ b rest, s.answers = .read (.bytes [b]) :: rest → b.getLsbD bit.pos = true →
        exec i s = .next (after s i rest (.memRead 0x03 1 (.bytes [b])) .waitClock)) ∧
      (∀ b rest, s.answers = .read (.bytes [b]) :: rest → b.getLsbD bit.pos = false →
        exec i s = .next { after s i rest (.memRead 0x03 1 (.bytes [b]))
            (.respond (okResponse (match eeCode s.params i with | some code => code.setWidth 32 | none => 0) [b]
              .notChecked)) with
          wait := some { w with state := .ready }, ee := if isEeprom i then .done else s.ee })) ∧
    (s.phase = .run i .waitClock → ∀ t rest, s.answers = .time t :: rest →
      exec i s = .next (if w.timeout.toNat < t - w.start then
          { after s i rest (.now t) (.respond (errorResponse .timeout)) with
            wait := some { w with state := .timedOut } }
        else after s i rest (.now t) .waitPause)) ∧
    (s.phase = .run i .waitPause → ∀ rest, s.answers = .slept :: rest →
      exec i s = .next (after s i rest (.sleep 1) .waitPoll))

/-- A wait whose status stays busy ends with TIMEOUT, under the clock contract, within T + 2 status reads and T + 1
sleeps, and not before the observed elapsed time exceeds T (42_wait_eeprom.md R193; 70_reset_and_hazards.md R264). -/
def Obligations.BusyWaitTimesOut : Prop :=
  ∀ s i bit timeout t0 polls rest, waitOf i = some (bit, timeout) → s.phase = .run i (waitEntry i) →
    s.answers = .time t0 :: (pollScript polls ++ rest) →
    allBusy bit polls = true → risingFrom t0 polls = true → timeout.toNat + 2 ≤ polls.length →
    ∃ n t done, n ≤ 3 * (timeout.toNat + 2) ∧ steps n s = .next t ∧
      t.phase = .run i (.respond (errorResponse .timeout)) ∧
      t.wait = some ⟨.timedOut, t0, timeout, bit⟩ ∧
      t.trace = s.trace ++ done ∧ readCount done ≤ timeout.toNat + 2 ∧ sleepCount done ≤ timeout.toNat + 1 ∧
      ∃ t1, done.getLast? = some (.now t1) ∧ t0 + timeout.toNat + 1 ≤ t1

/-- With an ideal clock a wait whose status stays busy performs exactly T + 2 status reads and T + 1 sleeps
(42_wait_eeprom.md R193). -/
def Obligations.BusyWaitWithIdealClockIsExact : Prop :=
  ∀ s i bit timeout t0 status rest, waitOf i = some (bit, timeout) → s.phase = .run i (waitEntry i) →
    s.answers = .time t0 :: (pollScript (idealPolls t0 status) ++ rest) →
    allBusy bit (idealPolls t0 status) = true → status.length = timeout.toNat + 2 →
    ∃ t done, steps (3 * (timeout.toNat + 2)) s = .next t ∧
      t.phase = .run i (.respond (errorResponse .timeout)) ∧ t.trace = s.trace ++ done ∧
      readCount done = timeout.toNat + 2 ∧ sleepCount done = timeout.toNat + 1 ∧
      done.getLast? = some (.now (t0 + timeout.toNat + 1))

/-- A wait cannot end with TIMEOUT while the observed elapsed time is within T: a step to the TIMEOUT response is the
timeout test with a reading above T (42_wait_eeprom.md R190, R193). -/
def Obligations.NoEarlyTimeout : Prop :=
  ∀ s t i r, WellPhased s → step s = .next t → t.phase = .run i (.respond r) → r.status = .timeout →
    s.phase ≠ t.phase →
    ∃ w now rest, s.phase = .run i .waitClock ∧ s.wait = some w ∧ s.answers = .time now :: rest ∧
      waitOf i = some (w.bit, w.timeout) ∧ w.timeout.toNat < now - w.start

/-- An EEPROM recall or soft reset is no reset of the block: no step of an EEPROM request changes a mirror or BUS_ADDR,
and LAST_ERROR changes only with the emission of its response (70_reset_and_hazards.md R252). -/
def Obligations.EepromRequestsLeaveTheMirrors : Prop :=
  ∀ s t i pos, isEeprom i = true → s.phase = .run i pos → step s = .next t →
    t.cfg = s.cfg ∧ t.mode = s.mode ∧ t.busAddr = s.busAddr ∧
    (t.lastError = s.lastError ∨ (t.phase = .idle ∧ t.lastError = t.rsp.classify s.lastError))
end

