-- ==== Sys2Proof/Laws/Encoding.lean ====
section
/-! SUPPORT. The small lemmas of the request word's layout and of the enumeration codes (30_encoding.md R80, R86 to
R90). -/

namespace Sys2Proof

@[simp] theorem Mode.ofCode_code (m : Mode) : Mode.ofCode m.code = m := by cases m <;> rfl

@[simp] theorem Mode.code_ofCode (c : BitVec 2) : (Mode.ofCode c).code = c := by
  revert c; decide

@[simp] theorem Rate.ofCode_code (r : Rate) : Rate.ofCode r.code = r := by cases r <;> rfl

@[simp] theorem Rate.code_ofCode (c : BitVec 3) : (Rate.ofCode c).code = c := by
  revert c; decide

@[simp] theorem Avg.ofCode_code (a : Avg) : Avg.ofCode a.code = a := by cases a <;> rfl

@[simp] theorem Avg.code_ofCode (c : BitVec 2) : (Avg.ofCode c).code = c := by
  revert c; decide

@[simp] theorem AlertMode.ofBit_bit (m : AlertMode) : AlertMode.ofBit m.bit = m := by cases m <;> rfl

@[simp] theorem AlertMode.bit_ofBit (b : Bool) : (AlertMode.ofBit b).bit = b := by cases b <;> rfl

/-- The low part of a concatenation. -/
theorem extract_low {m n : Nat} (x : BitVec m) (y : BitVec n) : (x ++ y).extractLsb' 0 n = y := by
  apply BitVec.eq_of_getLsbD_eq
  intro i hi
  simp [BitVec.getLsbD_append, hi]

/-- A part of a concatenation above its low part. -/
theorem extract_high {m n : Nat} (x : BitVec m) (y : BitVec n) (k w : Nat) :
    (x ++ y).extractLsb' (n + k) w = x.extractLsb' k w := by
  apply BitVec.eq_of_getLsbD_eq
  intro i hi
  have h : ¬ n + k + i < n := by omega
  have e : n + k + i - n = k + i := by omega
  simp [BitVec.getLsbD_append, h, e]

/-- The fields of a word are read back from it. -/
@[simp] theorem RequestFields.ofWord_toWord (x : RequestFields) : RequestFields.ofWord x.toWord = x := by
  obtain ⟨opc, f, d, rsv, imm⟩ := x
  have h0 : RequestFields.toWord ⟨opc, f, d, rsv, imm⟩ = imm ++ (rsv ++ (d ++ (f ++ opc))) := rfl
  simp only [RequestFields.ofWord, h0, RequestFields.mk.injEq]
  refine ⟨?_, ?_, ?_, ?_, ?_⟩ <;>
  · apply BitVec.eq_of_getLsbD_eq
    intro i hi
    simp only [BitVec.getLsbD_extractLsb', hi, decide_true, Bool.true_and, BitVec.getLsbD_append]
    repeat' split
    all_goals first | omega | (congr 1; omega)

end Sys2Proof
end

