-- ==== Sys2Proof/Laws/State.lean ====
section
/-! SUPPORT. One lemma per field of State per update, so that no proof unfolds a record update. -/

namespace Sys2Proof.Machine

@[simp] theorem State.moveTo_params (s : State) (p : Pos) :
    (s.moveTo p).params = s.params := rfl
@[simp] theorem State.moveTo_busAddr (s : State) (p : Pos) :
    (s.moveTo p).busAddr = s.busAddr := rfl
@[simp] theorem State.moveTo_cfg (s : State) (p : Pos) :
    (s.moveTo p).cfg = s.cfg := rfl
@[simp] theorem State.moveTo_mode (s : State) (p : Pos) :
    (s.moveTo p).mode = s.mode := rfl
@[simp] theorem State.moveTo_lastError (s : State) (p : Pos) :
    (s.moveTo p).lastError = s.lastError := rfl
@[simp] theorem State.moveTo_phase (s : State) (p : Pos) :
    (s.moveTo p).phase = s.phase.moveTo p := rfl
@[simp] theorem State.moveTo_wait (s : State) (p : Pos) :
    (s.moveTo p).wait = s.wait := rfl
@[simp] theorem State.moveTo_ee (s : State) (p : Pos) :
    (s.moveTo p).ee = s.ee := rfl
@[simp] theorem State.moveTo_rspValid (s : State) (p : Pos) :
    (s.moveTo p).rspValid = s.rspValid := rfl
@[simp] theorem State.moveTo_rsp (s : State) (p : Pos) :
    (s.moveTo p).rsp = s.rsp := rfl
@[simp] theorem State.moveTo_requests (s : State) (p : Pos) :
    (s.moveTo p).requests = s.requests := rfl
@[simp] theorem State.moveTo_answers (s : State) (p : Pos) :
    (s.moveTo p).answers = s.answers := rfl
@[simp] theorem State.moveTo_trace (s : State) (p : Pos) :
    (s.moveTo p).trace = s.trace := rfl
@[simp] theorem State.raise_params (s : State) (e : Status) :
    (s.raise e).params = s.params := rfl
@[simp] theorem State.raise_busAddr (s : State) (e : Status) :
    (s.raise e).busAddr = s.busAddr := rfl
@[simp] theorem State.raise_cfg (s : State) (e : Status) :
    (s.raise e).cfg = s.cfg := rfl
@[simp] theorem State.raise_mode (s : State) (e : Status) :
    (s.raise e).mode = s.mode := rfl
@[simp] theorem State.raise_lastError (s : State) (e : Status) :
    (s.raise e).lastError = s.lastError := rfl
@[simp] theorem State.raise_phase (s : State) (e : Status) :
    (s.raise e).phase = s.phase.moveTo (.respond (.failed e)) := rfl
@[simp] theorem State.raise_wait (s : State) (e : Status) :
    (s.raise e).wait = s.wait := rfl
@[simp] theorem State.raise_ee (s : State) (e : Status) :
    (s.raise e).ee = s.ee := rfl
@[simp] theorem State.raise_rspValid (s : State) (e : Status) :
    (s.raise e).rspValid = s.rspValid := rfl
@[simp] theorem State.raise_rsp (s : State) (e : Status) :
    (s.raise e).rsp = s.rsp := rfl
@[simp] theorem State.raise_requests (s : State) (e : Status) :
    (s.raise e).requests = s.requests := rfl
@[simp] theorem State.raise_answers (s : State) (e : Status) :
    (s.raise e).answers = s.answers := rfl
@[simp] theorem State.raise_trace (s : State) (e : Status) :
    (s.raise e).trace = s.trace := rfl
@[simp] theorem State.finish_params (s : State) (r : Response) :
    (s.finish r).params = s.params := rfl
@[simp] theorem State.finish_busAddr (s : State) (r : Response) :
    (s.finish r).busAddr = s.busAddr := rfl
@[simp] theorem State.finish_cfg (s : State) (r : Response) :
    (s.finish r).cfg = s.cfg := rfl
@[simp] theorem State.finish_mode (s : State) (r : Response) :
    (s.finish r).mode = s.mode := rfl
@[simp] theorem State.finish_lastError (s : State) (r : Response) :
    (s.finish r).lastError = s.lastError := rfl
@[simp] theorem State.finish_phase (s : State) (r : Response) :
    (s.finish r).phase = s.phase.moveTo (.respond r) := rfl
@[simp] theorem State.finish_wait (s : State) (r : Response) :
    (s.finish r).wait = s.wait := rfl
@[simp] theorem State.finish_ee (s : State) (r : Response) :
    (s.finish r).ee = s.ee := rfl
@[simp] theorem State.finish_rspValid (s : State) (r : Response) :
    (s.finish r).rspValid = s.rspValid := rfl
@[simp] theorem State.finish_rsp (s : State) (r : Response) :
    (s.finish r).rsp = s.rsp := rfl
@[simp] theorem State.finish_requests (s : State) (r : Response) :
    (s.finish r).requests = s.requests := rfl
@[simp] theorem State.finish_answers (s : State) (r : Response) :
    (s.finish r).answers = s.answers := rfl
@[simp] theorem State.finish_trace (s : State) (r : Response) :
    (s.finish r).trace = s.trace := rfl
@[simp] theorem State.setCfg_params (s : State) (m : CfgMirror) :
    (s.setCfg m).params = s.params := rfl
@[simp] theorem State.setCfg_busAddr (s : State) (m : CfgMirror) :
    (s.setCfg m).busAddr = s.busAddr := rfl
@[simp] theorem State.setCfg_cfg (s : State) (m : CfgMirror) :
    (s.setCfg m).cfg = m := rfl
@[simp] theorem State.setCfg_mode (s : State) (m : CfgMirror) :
    (s.setCfg m).mode = s.mode := rfl
@[simp] theorem State.setCfg_lastError (s : State) (m : CfgMirror) :
    (s.setCfg m).lastError = s.lastError := rfl
@[simp] theorem State.setCfg_phase (s : State) (m : CfgMirror) :
    (s.setCfg m).phase = s.phase := rfl
@[simp] theorem State.setCfg_wait (s : State) (m : CfgMirror) :
    (s.setCfg m).wait = s.wait := rfl
@[simp] theorem State.setCfg_ee (s : State) (m : CfgMirror) :
    (s.setCfg m).ee = s.ee := rfl
@[simp] theorem State.setCfg_rspValid (s : State) (m : CfgMirror) :
    (s.setCfg m).rspValid = s.rspValid := rfl
@[simp] theorem State.setCfg_rsp (s : State) (m : CfgMirror) :
    (s.setCfg m).rsp = s.rsp := rfl
@[simp] theorem State.setCfg_requests (s : State) (m : CfgMirror) :
    (s.setCfg m).requests = s.requests := rfl
@[simp] theorem State.setCfg_answers (s : State) (m : CfgMirror) :
    (s.setCfg m).answers = s.answers := rfl
@[simp] theorem State.setCfg_trace (s : State) (m : CfgMirror) :
    (s.setCfg m).trace = s.trace := rfl
@[simp] theorem State.setMode_params (s : State) (m : ModeMirror) :
    (s.setMode m).params = s.params := rfl
@[simp] theorem State.setMode_busAddr (s : State) (m : ModeMirror) :
    (s.setMode m).busAddr = s.busAddr := rfl
@[simp] theorem State.setMode_cfg (s : State) (m : ModeMirror) :
    (s.setMode m).cfg = s.cfg := rfl
@[simp] theorem State.setMode_mode (s : State) (m : ModeMirror) :
    (s.setMode m).mode = m := rfl
@[simp] theorem State.setMode_lastError (s : State) (m : ModeMirror) :
    (s.setMode m).lastError = s.lastError := rfl
@[simp] theorem State.setMode_phase (s : State) (m : ModeMirror) :
    (s.setMode m).phase = s.phase := rfl
@[simp] theorem State.setMode_wait (s : State) (m : ModeMirror) :
    (s.setMode m).wait = s.wait := rfl
@[simp] theorem State.setMode_ee (s : State) (m : ModeMirror) :
    (s.setMode m).ee = s.ee := rfl
@[simp] theorem State.setMode_rspValid (s : State) (m : ModeMirror) :
    (s.setMode m).rspValid = s.rspValid := rfl
@[simp] theorem State.setMode_rsp (s : State) (m : ModeMirror) :
    (s.setMode m).rsp = s.rsp := rfl
@[simp] theorem State.setMode_requests (s : State) (m : ModeMirror) :
    (s.setMode m).requests = s.requests := rfl
@[simp] theorem State.setMode_answers (s : State) (m : ModeMirror) :
    (s.setMode m).answers = s.answers := rfl
@[simp] theorem State.setMode_trace (s : State) (m : ModeMirror) :
    (s.setMode m).trace = s.trace := rfl
@[simp] theorem State.setWait_params (s : State) (w : Wait) :
    (s.setWait w).params = s.params := rfl
@[simp] theorem State.setWait_busAddr (s : State) (w : Wait) :
    (s.setWait w).busAddr = s.busAddr := rfl
@[simp] theorem State.setWait_cfg (s : State) (w : Wait) :
    (s.setWait w).cfg = s.cfg := rfl
@[simp] theorem State.setWait_mode (s : State) (w : Wait) :
    (s.setWait w).mode = s.mode := rfl
@[simp] theorem State.setWait_lastError (s : State) (w : Wait) :
    (s.setWait w).lastError = s.lastError := rfl
@[simp] theorem State.setWait_phase (s : State) (w : Wait) :
    (s.setWait w).phase = s.phase := rfl
@[simp] theorem State.setWait_wait (s : State) (w : Wait) :
    (s.setWait w).wait = some w := rfl
@[simp] theorem State.setWait_ee (s : State) (w : Wait) :
    (s.setWait w).ee = s.ee := rfl
@[simp] theorem State.setWait_rspValid (s : State) (w : Wait) :
    (s.setWait w).rspValid = s.rspValid := rfl
@[simp] theorem State.setWait_rsp (s : State) (w : Wait) :
    (s.setWait w).rsp = s.rsp := rfl
@[simp] theorem State.setWait_requests (s : State) (w : Wait) :
    (s.setWait w).requests = s.requests := rfl
@[simp] theorem State.setWait_answers (s : State) (w : Wait) :
    (s.setWait w).answers = s.answers := rfl
@[simp] theorem State.setWait_trace (s : State) (w : Wait) :
    (s.setWait w).trace = s.trace := rfl
@[simp] theorem State.setEe_params (s : State) (e : EeState) :
    (s.setEe e).params = s.params := rfl
@[simp] theorem State.setEe_busAddr (s : State) (e : EeState) :
    (s.setEe e).busAddr = s.busAddr := rfl
@[simp] theorem State.setEe_cfg (s : State) (e : EeState) :
    (s.setEe e).cfg = s.cfg := rfl
@[simp] theorem State.setEe_mode (s : State) (e : EeState) :
    (s.setEe e).mode = s.mode := rfl
@[simp] theorem State.setEe_lastError (s : State) (e : EeState) :
    (s.setEe e).lastError = s.lastError := rfl
@[simp] theorem State.setEe_phase (s : State) (e : EeState) :
    (s.setEe e).phase = s.phase := rfl
@[simp] theorem State.setEe_wait (s : State) (e : EeState) :
    (s.setEe e).wait = s.wait := rfl
@[simp] theorem State.setEe_ee (s : State) (e : EeState) :
    (s.setEe e).ee = e := rfl
@[simp] theorem State.setEe_rspValid (s : State) (e : EeState) :
    (s.setEe e).rspValid = s.rspValid := rfl
@[simp] theorem State.setEe_rsp (s : State) (e : EeState) :
    (s.setEe e).rsp = s.rsp := rfl
@[simp] theorem State.setEe_requests (s : State) (e : EeState) :
    (s.setEe e).requests = s.requests := rfl
@[simp] theorem State.setEe_answers (s : State) (e : EeState) :
    (s.setEe e).answers = s.answers := rfl
@[simp] theorem State.setEe_trace (s : State) (e : EeState) :
    (s.setEe e).trace = s.trace := rfl
@[simp] theorem State.accept_params (s : State) (p : Phase) :
    (s.accept p).params = s.params := rfl
@[simp] theorem State.accept_busAddr (s : State) (p : Phase) :
    (s.accept p).busAddr = s.busAddr := rfl
@[simp] theorem State.accept_cfg (s : State) (p : Phase) :
    (s.accept p).cfg = s.cfg := rfl
@[simp] theorem State.accept_mode (s : State) (p : Phase) :
    (s.accept p).mode = s.mode := rfl
@[simp] theorem State.accept_lastError (s : State) (p : Phase) :
    (s.accept p).lastError = s.lastError := rfl
@[simp] theorem State.accept_phase (s : State) (p : Phase) :
    (s.accept p).phase = p := rfl
@[simp] theorem State.accept_wait (s : State) (p : Phase) :
    (s.accept p).wait = s.wait := rfl
@[simp] theorem State.accept_ee (s : State) (p : Phase) :
    (s.accept p).ee = s.ee := rfl
@[simp] theorem State.accept_rspValid (s : State) (p : Phase) :
    (s.accept p).rspValid = false := rfl
@[simp] theorem State.accept_rsp (s : State) (p : Phase) :
    (s.accept p).rsp = s.rsp := rfl
@[simp] theorem State.accept_requests (s : State) (p : Phase) :
    (s.accept p).requests = s.requests.tail := rfl
@[simp] theorem State.accept_answers (s : State) (p : Phase) :
    (s.accept p).answers = s.answers := rfl
@[simp] theorem State.accept_trace (s : State) (p : Phase) :
    (s.accept p).trace = [] := rfl
@[simp] theorem State.acceptIllegal_params (s : State) (w : Word64) :
    (s.acceptIllegal w).params = s.params := rfl
@[simp] theorem State.acceptIllegal_busAddr (s : State) (w : Word64) :
    (s.acceptIllegal w).busAddr = s.busAddr := rfl
@[simp] theorem State.acceptIllegal_cfg (s : State) (w : Word64) :
    (s.acceptIllegal w).cfg = s.cfg := rfl
@[simp] theorem State.acceptIllegal_mode (s : State) (w : Word64) :
    (s.acceptIllegal w).mode = s.mode := rfl
@[simp] theorem State.acceptIllegal_lastError (s : State) (w : Word64) :
    (s.acceptIllegal w).lastError = s.lastError := rfl
@[simp] theorem State.acceptIllegal_phase (s : State) (w : Word64) :
    (s.acceptIllegal w).phase = .runIllegal (RequestFields.ofWord w).opc := rfl
@[simp] theorem State.acceptIllegal_wait (s : State) (w : Word64) :
    (s.acceptIllegal w).wait = s.wait := rfl
@[simp] theorem State.acceptIllegal_ee (s : State) (w : Word64) :
    (s.acceptIllegal w).ee = s.ee := rfl
@[simp] theorem State.acceptIllegal_rspValid (s : State) (w : Word64) :
    (s.acceptIllegal w).rspValid = false := rfl
@[simp] theorem State.acceptIllegal_rsp (s : State) (w : Word64) :
    (s.acceptIllegal w).rsp = s.rsp := rfl
@[simp] theorem State.acceptIllegal_requests (s : State) (w : Word64) :
    (s.acceptIllegal w).requests = s.requests.tail := rfl
@[simp] theorem State.acceptIllegal_answers (s : State) (w : Word64) :
    (s.acceptIllegal w).answers = s.answers := rfl
@[simp] theorem State.acceptIllegal_trace (s : State) (w : Word64) :
    (s.acceptIllegal w).trace = [] := rfl
@[simp] theorem State.emit_params (s : State) (r : Response) :
    (s.emit r).params = s.params := rfl
@[simp] theorem State.emit_busAddr (s : State) (r : Response) :
    (s.emit r).busAddr = s.busAddr := rfl
@[simp] theorem State.emit_cfg (s : State) (r : Response) :
    (s.emit r).cfg = s.cfg := rfl
@[simp] theorem State.emit_mode (s : State) (r : Response) :
    (s.emit r).mode = s.mode := rfl
@[simp] theorem State.emit_lastError (s : State) (r : Response) :
    (s.emit r).lastError = s.phase.nextLastError r s.lastError := rfl
@[simp] theorem State.emit_phase (s : State) (r : Response) :
    (s.emit r).phase = .idle := rfl
@[simp] theorem State.emit_wait (s : State) (r : Response) :
    (s.emit r).wait = none := rfl
@[simp] theorem State.emit_ee (s : State) (r : Response) :
    (s.emit r).ee = .idle := rfl
@[simp] theorem State.emit_rspValid (s : State) (r : Response) :
    (s.emit r).rspValid = true := rfl
@[simp] theorem State.emit_rsp (s : State) (r : Response) :
    (s.emit r).rsp = r := rfl
@[simp] theorem State.emit_requests (s : State) (r : Response) :
    (s.emit r).requests = s.requests := rfl
@[simp] theorem State.emit_answers (s : State) (r : Response) :
    (s.emit r).answers = s.answers := rfl
@[simp] theorem State.emit_trace (s : State) (r : Response) :
    (s.emit r).trace = s.trace := rfl
@[simp] theorem State.answered_params (s : State) (rest : List Answer) (e : Event) :
    (s.answered rest e).params = s.params := rfl
@[simp] theorem State.answered_busAddr (s : State) (rest : List Answer) (e : Event) :
    (s.answered rest e).busAddr = s.busAddr := rfl
@[simp] theorem State.answered_cfg (s : State) (rest : List Answer) (e : Event) :
    (s.answered rest e).cfg = s.cfg := rfl
@[simp] theorem State.answered_mode (s : State) (rest : List Answer) (e : Event) :
    (s.answered rest e).mode = s.mode := rfl
@[simp] theorem State.answered_lastError (s : State) (rest : List Answer) (e : Event) :
    (s.answered rest e).lastError = s.lastError := rfl
@[simp] theorem State.answered_phase (s : State) (rest : List Answer) (e : Event) :
    (s.answered rest e).phase = s.phase := rfl
@[simp] theorem State.answered_wait (s : State) (rest : List Answer) (e : Event) :
    (s.answered rest e).wait = s.wait := rfl
@[simp] theorem State.answered_ee (s : State) (rest : List Answer) (e : Event) :
    (s.answered rest e).ee = s.ee := rfl
@[simp] theorem State.answered_rspValid (s : State) (rest : List Answer) (e : Event) :
    (s.answered rest e).rspValid = s.rspValid := rfl
@[simp] theorem State.answered_rsp (s : State) (rest : List Answer) (e : Event) :
    (s.answered rest e).rsp = s.rsp := rfl
@[simp] theorem State.answered_requests (s : State) (rest : List Answer) (e : Event) :
    (s.answered rest e).requests = s.requests := rfl
@[simp] theorem State.answered_answers (s : State) (rest : List Answer) (e : Event) :
    (s.answered rest e).answers = rest := rfl
@[simp] theorem State.answered_trace (s : State) (rest : List Answer) (e : Event) :
    (s.answered rest e).trace = s.trace ++ [e] := rfl

@[simp] theorem Phase.moveTo_run (i : Instr) (p q : Pos) : (Phase.run i p).moveTo q = .run i q := rfl
@[simp] theorem Phase.moveTo_idle (q : Pos) : Phase.idle.moveTo q = .idle := rfl
@[simp] theorem Phase.moveTo_runIllegal (b : Byte) (q : Pos) : (Phase.runIllegal b).moveTo q = .runIllegal b := rfl
@[simp] theorem Phase.moveTo_moveTo (p : Phase) (q r : Pos) : (p.moveTo q).moveTo r = p.moveTo r := by
  cases p <;> rfl

@[simp] theorem Phase.nextLastError_runIllegal (b : Byte) (r : Response) (e : Status) :
    (Phase.runIllegal b).nextLastError r e = r.classify e := rfl
@[simp] theorem Phase.nextLastError_lastError (p : Pos) (r : Response) (e : Status) :
    (Phase.run .lastError p).nextLastError r e = e := rfl
theorem Phase.nextLastError_run (i : Instr) (p : Pos) (r : Response) (e : Status) (h : i ≠ .lastError) :
    (Phase.run i p).nextLastError r e = r.classify e := by
  cases i <;> first | rfl | exact absurd rfl h

@[simp] theorem Response.failed_status (e : Status) : (Response.failed e).status = e := rfl
@[simp] theorem Response.failed_chk (e : Status) : (Response.failed e).chk = .notChecked := rfl
@[simp] theorem Response.failed_valid (e : Status) : (Response.failed e).valid = false := rfl
@[simp] theorem Response.failed_value (e : Status) : (Response.failed e).value = 0 := rfl
@[simp] theorem Response.failed_data (e : Status) : (Response.failed e).data = [] := rfl
@[simp] theorem Response.result_status (v : Word32) (d : List Byte) (k : Chk) : (Response.result v d k).status = .ok := rfl
@[simp] theorem Response.result_chk (v : Word32) (d : List Byte) (k : Chk) : (Response.result v d k).chk = k := rfl
@[simp] theorem Response.result_valid (v : Word32) (d : List Byte) (k : Chk) : (Response.result v d k).valid = true := rfl
@[simp] theorem Response.result_value (v : Word32) (d : List Byte) (k : Chk) : (Response.result v d k).value = v := rfl
@[simp] theorem Response.result_data (v : Word32) (d : List Byte) (k : Chk) : (Response.result v d k).data = d := rfl

end Sys2Proof.Machine
end

