-- ==== Sys2Proof/Laws/Ops.lean ====
section
/-! SUPPORT. For each shared operation of the sequencer, what it can do, said once: an equation for each kind of
answer, and an inversion lemma for a next state. -/

namespace Sys2Proof.Machine

/-! ### The four primitives -/

theorem memRead_unanswered {addr : Byte} {n : Nat} {k : ReadAnswer → State → State} {s : State}
    (h : s.answers = []) : memRead addr n k s = .next s := by
  simp [memRead, h]

theorem memRead_answered {addr : Byte} {n : Nat} {k : ReadAnswer → State → State} {s : State} {a : ReadAnswer}
    {rest : List Answer} (h : s.answers = .read a :: rest) (fits : a.fits n = true) :
    memRead addr n k s = .next (k a (s.answered rest (.memRead addr n a))) := by
  simp [memRead, h, fits]

/-- All that `MemRead` can do when it answers a next state. -/
theorem memRead_next {addr : Byte} {n : Nat} {k : ReadAnswer → State → State} {s t : State}
    (h : memRead addr n k s = .next t) :
    (s.answers = [] ∧ t = s) ∨
    ∃ a rest, s.answers = .read a :: rest ∧ a.fits n = true ∧ t = k a (s.answered rest (.memRead addr n a)) := by
  unfold memRead at h
  split at h
  · next hs => exact .inl ⟨hs, by simpa using h.symm⟩
  · next a rest hs =>
    split at h
    · next hf => exact .inr ⟨a, rest, hs, hf, by simpa using h.symm⟩
    · cases h
  · cases h

theorem memWrite_unanswered {addr : Byte} {bytes : List Byte} {k : Bool → State → State} {s : State}
    (h : s.answers = []) : memWrite addr bytes k s = .next s := by
  simp [memWrite, h]

theorem memWrite_answered {addr : Byte} {bytes : List Byte} {k : Bool → State → State} {s : State} {ok : Bool}
    {rest : List Answer} (h : s.answers = .written ok :: rest) :
    memWrite addr bytes k s = .next (k ok (s.answered rest (.memWrite addr bytes ok))) := by
  simp [memWrite, h]

/-- All that `MemWrite` can do when it answers a next state. -/
theorem memWrite_next {addr : Byte} {bytes : List Byte} {k : Bool → State → State} {s t : State}
    (h : memWrite addr bytes k s = .next t) :
    (s.answers = [] ∧ t = s) ∨
    ∃ ok rest, s.answers = .written ok :: rest ∧ t = k ok (s.answered rest (.memWrite addr bytes ok)) := by
  unfold memWrite at h
  split at h
  · next hs => exact .inl ⟨hs, by simpa using h.symm⟩
  · next ok rest hs => exact .inr ⟨ok, rest, hs, by simpa using h.symm⟩
  · cases h

theorem now_unanswered {k : Nat → State → State} {s : State} (h : s.answers = []) : now k s = .next s := by
  simp [now, h]

theorem now_answered {k : Nat → State → State} {s : State} {t : Nat} {rest : List Answer}
    (h : s.answers = .time t :: rest) : now k s = .next (k t (s.answered rest (.now t))) := by
  simp [now, h]

/-- All that `Now` can do when it answers a next state. -/
theorem now_next {k : Nat → State → State} {s u : State} (h : now k s = .next u) :
    (s.answers = [] ∧ u = s) ∨
    ∃ t rest, s.answers = .time t :: rest ∧ u = k t (s.answered rest (.now t)) := by
  unfold now at h
  split at h
  · next hs => exact .inl ⟨hs, by simpa using h.symm⟩
  · next t rest hs => exact .inr ⟨t, rest, hs, by simpa using h.symm⟩
  · cases h

theorem sleep_unanswered {d : Nat} {k : State → State} {s : State} (h : s.answers = []) :
    sleep d k s = .next s := by
  simp [sleep, h]

theorem sleep_answered {d : Nat} {k : State → State} {s : State} {rest : List Answer}
    (h : s.answers = .slept :: rest) : sleep d k s = .next (k (s.answered rest (.sleep d))) := by
  simp [sleep, h]

/-- All that `Sleep` can do when it answers a next state. -/
theorem sleep_next {d : Nat} {k : State → State} {s u : State} (h : sleep d k s = .next u) :
    (s.answers = [] ∧ u = s) ∨
    ∃ rest, s.answers = .slept :: rest ∧ u = k (s.answered rest (.sleep d)) := by
  unfold sleep at h
  split at h
  · next hs => exact .inl ⟨hs, by simpa using h.symm⟩
  · next rest hs => exact .inr ⟨rest, hs, by simpa using h.symm⟩
  · cases h

/-! ### `ReadN` and `WriteN` -/

@[simp] theorem afterReadN_fail (n : Nat) (k : List Byte → State → State) (t : State) :
    afterReadN n k .fail t = t.raise .transportFailure := rfl

theorem afterReadN_short {n : Nat} {k : List Byte → State → State} {bs : List Byte} (t : State)
    (h : bs.length < n) : afterReadN n k (.bytes bs) t = t.raise .incompleteRead := by
  simp [afterReadN, h]

theorem afterReadN_full {n : Nat} {k : List Byte → State → State} {bs : List Byte} (t : State)
    (h : bs.length = n) : afterReadN n k (.bytes bs) t = k bs t := by
  simp [afterReadN, h]

@[simp] theorem afterWriteN_ok (k : State → State) (t : State) : afterWriteN k true t = k t := rfl

@[simp] theorem afterWriteN_fail (k : State → State) (t : State) :
    afterWriteN k false t = t.raise .transportFailure := rfl

/-- All that `ReadN` can do when it answers a next state (41_session.md R141). -/
theorem readN_next {addr : Byte} {n : Nat} {k : List Byte → State → State} {s t : State}
    (h : readN addr n k s = .next t) :
    (s.answers = [] ∧ t = s) ∨
    (∃ rest, s.answers = .read .fail :: rest ∧
      t = (s.answered rest (.memRead addr n .fail)).raise .transportFailure) ∨
    (∃ bs rest, s.answers = .read (.bytes bs) :: rest ∧ bs.length < n ∧
      t = (s.answered rest (.memRead addr n (.bytes bs))).raise .incompleteRead) ∨
    (∃ bs rest, s.answers = .read (.bytes bs) :: rest ∧ bs.length = n ∧
      t = k bs (s.answered rest (.memRead addr n (.bytes bs)))) := by
  obtain h | ⟨a, rest, ha, hf, ht⟩ := memRead_next h
  · exact .inl h
  · cases a with
    | fail => exact .inr (.inl ⟨rest, ha, ht⟩)
    | bytes bs =>
      have hle : bs.length ≤ n := by simpa [ReadAnswer.fits] using hf
      by_cases hlt : bs.length < n
      · exact .inr (.inr (.inl ⟨bs, rest, ha, hlt, by rw [ht, afterReadN_short _ hlt]⟩))
      · have heq : bs.length = n := by omega
        exact .inr (.inr (.inr ⟨bs, rest, ha, heq, by rw [ht, afterReadN_full _ heq]⟩))

/-- All that `WriteN` can do when it answers a next state (41_session.md R142). -/
theorem writeN_next {addr : Byte} {bytes : List Byte} {k : State → State} {s t : State}
    (h : writeN addr bytes k s = .next t) :
    (s.answers = [] ∧ t = s) ∨
    (∃ rest, s.answers = .written false :: rest ∧
      t = (s.answered rest (.memWrite addr bytes false)).raise .transportFailure) ∨
    (∃ rest, s.answers = .written true :: rest ∧ t = k (s.answered rest (.memWrite addr bytes true))) := by
  obtain h | ⟨ok, rest, ha, ht⟩ := memWrite_next h
  · exact .inl h
  · cases ok with
    | false => exact .inr (.inl ⟨rest, ha, ht⟩)
    | true => exact .inr (.inr ⟨rest, ha, ht⟩)

/-! ### One SEQ step of a request -/

theorem perform_idle {i : Instr} {body : Pos → State → Result} {s : State} (h : s.phase = .idle) :
    perform i body s = .next (s.accept (.run i .start)) := by
  simp [perform, h]

theorem perform_respond {i : Instr} {body : Pos → State → Result} {s : State} {r : Response}
    (h : s.phase = .run i (.respond r)) : perform i body s = .next (s.emit r) := by
  simp [perform, h]

theorem perform_body {i : Instr} {body : Pos → State → Result} {s : State} {pos : Pos}
    (h : s.phase = .run i pos) (hr : ∀ r, pos ≠ .respond r) : perform i body s = body pos s := by
  cases pos <;> simp_all [perform]

/-- All that one step of a request can do when it answers a next state. -/
theorem perform_next {i : Instr} {body : Pos → State → Result} {s t : State} (h : perform i body s = .next t) :
    (s.phase = .idle ∧ t = s.accept (.run i .start)) ∨
    (∃ r, s.phase = .run i (.respond r) ∧ t = s.emit r) ∨
    (∃ pos, s.phase = .run i pos ∧ (∀ r, pos ≠ .respond r) ∧ body pos s = .next t) := by
  unfold perform at h
  split at h
  · next hp => exact .inl ⟨hp, by simpa using h.symm⟩
  · next j pos hp =>
    split at h
    · next hj =>
      subst hj
      split at h
      · next r => exact .inr (.inl ⟨r, hp, by simpa using h.symm⟩)
      · next hne => exact .inr (.inr ⟨pos, hp, fun r hr => hne r hr, h⟩)
    · cases h
  · cases h

@[simp] theorem atStart_start (first : State → Result) (s : State) : atStart first .start s = first s := rfl

/-- A pseudocode with one primitive has the start as its only position. -/
theorem atStart_next {first : State → Result} {pos : Pos} {s t : State} (h : atStart first pos s = .next t) :
    pos = .start ∧ first s = .next t := by
  cases pos <;> simp_all [atStart]

@[simp] theorem respondNow_eq (r : Response) (s : State) : respondNow r s = .next (s.emit r) := rfl

/-! ### One step of the machine -/

theorem step_run {s : State} {i : Instr} {pos : Pos} (h : s.phase = .run i pos) : step s = exec i s := by
  simp [step, h]

theorem step_waits {s : State} (h : s.phase = .idle) (hr : s.requests = []) : step s = .next s := by
  simp [step, h, hr]

theorem step_legal {s : State} {w : Word64} {ws : List Word64} {i : Instr} (h : s.phase = .idle)
    (hr : s.requests = w :: ws) (hd : decode w = some i) : step s = exec i s := by
  simp [step, h, hr, hd]

theorem step_illegal {s : State} {w : Word64} {ws : List Word64} (h : s.phase = .idle)
    (hr : s.requests = w :: ws) (hd : decode w = none) : step s = .next (s.acceptIllegal w) := by
  simp [step, h, hr, hd]

theorem step_runIllegal {s : State} {op : Byte} (h : s.phase = .runIllegal op) :
    step s = .next (s.emit illegalResponse) := by
  simp [step, h]

/-- In IDLE, `exec` accepts its request, whichever it is. -/
theorem exec_idle (i : Instr) {s : State} (h : s.phase = .idle) :
    exec i s = .next (s.accept (.run i .start)) := by
  cases i <;> exact perform_idle h

/-- With a response due, `exec` emits it, whichever request runs. -/
theorem exec_respond (i : Instr) {s : State} {r : Response} (h : s.phase = .run i (.respond r)) :
    exec i s = .next (s.emit r) := by
  cases i <;> exact perform_respond h

/-- All that one step of the machine can do when it answers a next state. -/
theorem step_next {s t : State} (h : step s = .next t) :
    (s.phase = .idle ∧ s.requests = [] ∧ t = s) ∨
    (∃ w ws i, s.phase = .idle ∧ s.requests = w :: ws ∧ decode w = some i ∧ t = s.accept (.run i .start)) ∨
    (∃ w ws, s.phase = .idle ∧ s.requests = w :: ws ∧ decode w = none ∧ t = s.acceptIllegal w) ∨
    (∃ op, s.phase = .runIllegal op ∧ t = s.emit illegalResponse) ∨
    (∃ i r, s.phase = .run i (.respond r) ∧ t = s.emit r) ∨
    (∃ i pos, s.phase = .run i pos ∧ (∀ r, pos ≠ .respond r) ∧ exec i s = .next t) := by
  cases hp : s.phase with
  | idle =>
    cases hr : s.requests with
    | nil => rw [step_waits hp hr] at h; exact .inl ⟨rfl, rfl, by simpa using h.symm⟩
    | cons w ws =>
      cases hd : decode w with
      | none =>
        rw [step_illegal hp hr hd] at h
        exact .inr (.inr (.inl ⟨w, ws, rfl, rfl, hd, by simpa using h.symm⟩))
      | some i =>
        rw [step_legal hp hr hd, exec_idle i hp] at h
        exact .inr (.inl ⟨w, ws, i, rfl, rfl, hd, by simpa using h.symm⟩)
  | runIllegal op =>
    rw [step_runIllegal hp] at h
    exact .inr (.inr (.inr (.inl ⟨op, rfl, by simpa using h.symm⟩)))
  | run i pos =>
    rw [step_run hp] at h
    by_cases hr : ∃ r, pos = .respond r
    · obtain ⟨r, rfl⟩ := hr
      rw [exec_respond i hp] at h
      exact .inr (.inr (.inr (.inr (.inl ⟨i, r, rfl, by simpa using h.symm⟩))))
    · exact .inr (.inr (.inr (.inr (.inr ⟨i, pos, rfl, fun r e => hr ⟨r, e⟩, h⟩))))

end Sys2Proof.Machine
end

