-- ==== Sys2Proof/Laws/PerInstr.lean ====
section
/-! SUPPORT. The family of statements made once per instruction: the word an instruction encodes to satisfies
`REQ & mask = match` of its own row of the opcode map (30_encoding.md R82, R98). -/

namespace Sys2Proof.Laws

/-- The encoded word of `i` satisfies its row's `REQ & mask = match`. -/
def EncodingSelectsRow.Statement (i : Instr) : Prop := i.row.selects (encode i) = true

/-- Masking a request word masks its fields. -/
theorem EncodingSelectsRow.mask_fields (x m : RequestFields) :
    x.toWord &&& m.toWord =
      RequestFields.toWord ⟨x.opc &&& m.opc, x.f &&& m.f, x.d &&& m.d, x.rsv &&& m.rsv, x.imm &&& m.imm⟩ := by
  simp only [RequestFields.toWord]
  apply BitVec.eq_of_getLsbD_eq
  intro k _
  simp only [BitVec.getLsbD_and, BitVec.getLsbD_append]
  repeat' split
  all_goals rfl

/-- A 16-bit operand leaves IMM[31:16] 0. -/
theorem EncodingSelectsRow.imm16 (w : Word16) : zeroExtend16 w &&& 0xFFFF0000 = 0 := by
  apply BitVec.eq_of_getLsbD_eq
  intro k hk
  simp only [zeroExtend16, BitVec.getLsbD_and, BitVec.getLsbD_append]
  interval_cases k <;> simp

/-- An 8-bit operand leaves IMM[31:8] 0. -/
theorem EncodingSelectsRow.imm8 (b : Byte) : zeroExtend8 b &&& 0xFFFFFF00 = 0 := by
  apply BitVec.eq_of_getLsbD_eq
  intro k hk
  simp only [zeroExtend8, BitVec.getLsbD_and, BitVec.getLsbD_append]
  interval_cases k <;> simp

/-- A row whose mask and pattern are given by fields is selected when the masked fields are the pattern's. -/
theorem EncodingSelectsRow.of_fields {i : Instr} (m p : RequestFields) (hm : i.row.mask = m.toWord)
    (hp : i.row.pattern = p.toWord)
    (h : (⟨i.fields.opc &&& m.opc, i.fields.f &&& m.f, i.fields.d &&& m.d, i.fields.rsv &&& m.rsv,
      i.fields.imm &&& m.imm⟩ : RequestFields) = p) : EncodingSelectsRow.Statement i := by
  simp only [Statement, OpcodeRow.selects, encode, hm, hp, mask_fields, h, beq_self_eq_true]


theorem EncodingSelectsRow.encCmd (mode : Mode) (heater : Bool) : EncodingSelectsRow.Statement (.encCmd mode heater) := by
  cases mode <;> cases heater <;> rfl

theorem EncodingSelectsRow.decCmd (byte : Byte) : EncodingSelectsRow.Statement (.decCmd byte) := by
  refine of_fields ⟨0xFF, 0xFF, 0x00, 0xFF, 0xFFFFFFFF⟩ ⟨0x02, 0x00, 0x00, 0x00, 0x00000000⟩ (by rfl) (by rfl) ?_
  simp [Instr.fields]

theorem EncodingSelectsRow.encCfg (rate : Rate) (avg : Avg) (sleep : Bool) : EncodingSelectsRow.Statement (.encCfg rate avg sleep) := by
  cases rate <;> cases avg <;> cases sleep <;> rfl

theorem EncodingSelectsRow.decCfg (byte : Byte) : EncodingSelectsRow.Statement (.decCfg byte) := by
  refine of_fields ⟨0xFF, 0xFF, 0x00, 0xFF, 0xFFFFFFFF⟩ ⟨0x04, 0x00, 0x00, 0x00, 0x00000000⟩ (by rfl) (by rfl) ?_
  simp [Instr.fields]

theorem EncodingSelectsRow.decStatus (byte : Byte) : EncodingSelectsRow.Statement (.decStatus byte) := by
  refine of_fields ⟨0xFF, 0xFF, 0x00, 0xFF, 0xFFFFFFFF⟩ ⟨0x05, 0x00, 0x00, 0x00, 0x00000000⟩ (by rfl) (by rfl) ?_
  simp [Instr.fields]

theorem EncodingSelectsRow.encAlert (enabled : Bool) (mode : AlertMode) : EncodingSelectsRow.Statement (.encAlert enabled mode) := by
  cases enabled <;> cases mode <;> rfl

theorem EncodingSelectsRow.decAlert (byte : Byte) : EncodingSelectsRow.Statement (.decAlert byte) := by
  refine of_fields ⟨0xFF, 0xFF, 0x00, 0xFF, 0xFFFFFFFF⟩ ⟨0x07, 0x00, 0x00, 0x00, 0x00000000⟩ (by rfl) (by rfl) ?_
  simp [Instr.fields]

theorem EncodingSelectsRow.decRaw (lsb msb : Byte) : EncodingSelectsRow.Statement (.decRaw lsb msb) := by
  refine of_fields ⟨0xFF, 0xFF, 0xFF, 0xFF, 0xFFFF0000⟩ ⟨0x08, 0x00, 0x00, 0x00, 0x00000000⟩ (by rfl) (by rfl) ?_
  simpa [Instr.fields] using imm16 _

theorem EncodingSelectsRow.rawToC (raw : Word16) : EncodingSelectsRow.Statement (.rawToC raw) := by
  refine of_fields ⟨0xFF, 0xFF, 0xFF, 0xFF, 0xFFFF0000⟩ ⟨0x09, 0x00, 0x00, 0x00, 0x00000000⟩ (by rfl) (by rfl) ?_
  simpa [Instr.fields] using imm16 _

theorem EncodingSelectsRow.cToRaw (c : Word32) : EncodingSelectsRow.Statement (.cToRaw c) := by
  refine of_fields ⟨0xFF, 0xFF, 0xFF, 0xFF, 0x00000000⟩ ⟨0x0A, 0x00, 0x00, 0x00, 0x00000000⟩ (by rfl) (by rfl) ?_
  simp [Instr.fields]

theorem EncodingSelectsRow.crc8Upd (acc byte : Byte) : EncodingSelectsRow.Statement (.crc8Upd acc byte) := by
  refine of_fields ⟨0xFF, 0xFF, 0x00, 0xFF, 0xFFFFFF00⟩ ⟨0x0B, 0x00, 0x00, 0x00, 0x00000000⟩ (by rfl) (by rfl) ?_
  simpa [Instr.fields] using imm8 _

theorem EncodingSelectsRow.configure (rate : Rate) (avg : Avg) (sleep : Bool) : EncodingSelectsRow.Statement (.configure rate avg sleep) := by
  cases rate <;> cases avg <;> cases sleep <;> rfl

theorem EncodingSelectsRow.setMode (mode : Mode) (heater : Bool) : EncodingSelectsRow.Statement (.setMode mode heater) := by
  cases mode <;> cases heater <;> rfl

theorem EncodingSelectsRow.readTemp (wait verify : Bool) : EncodingSelectsRow.Statement (.readTemp wait verify) := by
  cases wait <;> cases verify <;> rfl

theorem EncodingSelectsRow.singleShot : EncodingSelectsRow.Statement .singleShot := by
  rfl

theorem EncodingSelectsRow.readStatus : EncodingSelectsRow.Statement .readStatus := by
  rfl

theorem EncodingSelectsRow.isBusy : EncodingSelectsRow.Statement .isBusy := by
  rfl

theorem EncodingSelectsRow.heaterOn : EncodingSelectsRow.Statement .heaterOn := by
  rfl

theorem EncodingSelectsRow.heaterOff : EncodingSelectsRow.Statement .heaterOff := by
  rfl

theorem EncodingSelectsRow.setAlertMode (enabled : Bool) (mode : AlertMode) : EncodingSelectsRow.Statement (.setAlertMode enabled mode) := by
  cases enabled <;> cases mode <;> rfl

theorem EncodingSelectsRow.getAlertMode : EncodingSelectsRow.Statement .getAlertMode := by
  rfl

theorem EncodingSelectsRow.setHighLimit (c : Word32) : EncodingSelectsRow.Statement (.setHighLimit c) := by
  refine of_fields ⟨0xFF, 0xFF, 0xFF, 0xFF, 0x00000000⟩ ⟨0x1A, 0x00, 0x00, 0x00, 0x00000000⟩ (by rfl) (by rfl) ?_
  simp [Instr.fields]

theorem EncodingSelectsRow.setLowLimit (c : Word32) : EncodingSelectsRow.Statement (.setLowLimit c) := by
  refine of_fields ⟨0xFF, 0xFF, 0xFF, 0xFF, 0x00000000⟩ ⟨0x1B, 0x00, 0x00, 0x00, 0x00000000⟩ (by rfl) (by rfl) ?_
  simp [Instr.fields]

theorem EncodingSelectsRow.getHighLimit : EncodingSelectsRow.Statement .getHighLimit := by
  rfl

theorem EncodingSelectsRow.getLowLimit : EncodingSelectsRow.Statement .getLowLimit := by
  rfl

theorem EncodingSelectsRow.readDeviceId : EncodingSelectsRow.Statement .readDeviceId := by
  rfl

theorem EncodingSelectsRow.readRomCode : EncodingSelectsRow.Statement .readRomCode := by
  rfl

theorem EncodingSelectsRow.readUserReg (index : Byte) : EncodingSelectsRow.Statement (.readUserReg index) := by
  refine of_fields ⟨0xFF, 0xFF, 0x00, 0xFF, 0xFFFFFFFF⟩ ⟨0x20, 0x00, 0x00, 0x00, 0x00000000⟩ (by rfl) (by rfl) ?_
  simp [Instr.fields]

theorem EncodingSelectsRow.writeUserReg (index value : Byte) : EncodingSelectsRow.Statement (.writeUserReg index value) := by
  refine of_fields ⟨0xFF, 0xFF, 0x00, 0xFF, 0xFFFFFF00⟩ ⟨0x21, 0x00, 0x00, 0x00, 0x00000000⟩ (by rfl) (by rfl) ?_
  simpa [Instr.fields] using imm8 _

theorem EncodingSelectsRow.readScratch : EncodingSelectsRow.Statement .readScratch := by
  rfl

theorem EncodingSelectsRow.readScratchExt : EncodingSelectsRow.Statement .readScratchExt := by
  rfl

theorem EncodingSelectsRow.setParasitic (enabled : Bool) : EncodingSelectsRow.Statement (.setParasitic enabled) := by
  cases enabled <;> rfl

theorem EncodingSelectsRow.lastError : EncodingSelectsRow.Statement .lastError := by
  rfl

theorem EncodingSelectsRow.eeCopyPage (wait : Bool) (timeout : Word32) : EncodingSelectsRow.Statement (.eeCopyPage wait timeout) := by
  refine of_fields ⟨0xFF, 0xFE, 0xFF, 0xFF, 0x00000000⟩ ⟨0x30, 0x00, 0x00, 0x00, 0x00000000⟩ (by rfl) (by rfl) ?_
  cases wait <;> simp [Instr.fields, twoFlags]

theorem EncodingSelectsRow.eeRecallPage (wait : Bool) (timeout : Word32) : EncodingSelectsRow.Statement (.eeRecallPage wait timeout) := by
  refine of_fields ⟨0xFF, 0xFE, 0xFF, 0xFF, 0x00000000⟩ ⟨0x31, 0x00, 0x00, 0x00, 0x00000000⟩ (by rfl) (by rfl) ?_
  cases wait <;> simp [Instr.fields, twoFlags]

theorem EncodingSelectsRow.eeFullRecall (wait : Bool) (timeout : Word32) : EncodingSelectsRow.Statement (.eeFullRecall wait timeout) := by
  refine of_fields ⟨0xFF, 0xFE, 0xFF, 0xFF, 0x00000000⟩ ⟨0x32, 0x00, 0x00, 0x00, 0x00000000⟩ (by rfl) (by rfl) ?_
  cases wait <;> simp [Instr.fields, twoFlags]

theorem EncodingSelectsRow.eeSoftReset (wait : Bool) (timeout : Word32) : EncodingSelectsRow.Statement (.eeSoftReset wait timeout) := by
  refine of_fields ⟨0xFF, 0xFE, 0xFF, 0xFF, 0x00000000⟩ ⟨0x33, 0x00, 0x00, 0x00, 0x00000000⟩ (by rfl) (by rfl) ?_
  cases wait <;> simp [Instr.fields, twoFlags]

theorem EncodingSelectsRow.waitConversion (timeout : Word32) : EncodingSelectsRow.Statement (.waitConversion timeout) := by
  refine of_fields ⟨0xFF, 0xFF, 0xFF, 0xFF, 0x00000000⟩ ⟨0x34, 0x00, 0x00, 0x00, 0x00000000⟩ (by rfl) (by rfl) ?_
  simp [Instr.fields]

theorem EncodingSelectsRow.waitEeprom (timeout : Word32) : EncodingSelectsRow.Statement (.waitEeprom timeout) := by
  refine of_fields ⟨0xFF, 0xFF, 0xFF, 0xFF, 0x00000000⟩ ⟨0x35, 0x00, 0x00, 0x00, 0x00000000⟩ (by rfl) (by rfl) ?_
  simp [Instr.fields]

end Sys2Proof.Laws
end

