-- ==== Sys2Proof/Laws/Wait.lean ====
section
/-! SUPPORT. What the wait engine and the EEPROM sequence can do, said once (42_wait_eeprom.md R190, R195). -/

namespace Sys2Proof.Machine

/-- All that the entry of a wait can do. -/
theorem waitEnter_next {bit : WaitBit} {timeout : Word32} {s u : State} (h : waitEnter bit timeout s = .next u) :
    (s.answers = [] ∧ u = s) ∨
    ∃ t rest, s.answers = .time t :: rest ∧
      u = ((s.answered rest (.now t)).setWait ⟨.polling, t, timeout, bit⟩).moveTo .waitPoll :=
  now_next h

/-- All that a poll's status read can lead to. -/
theorem afterPoll_cases (bit : WaitBit) (ready : Byte → State → State) (w : Wait) (a : ReadAnswer) (t : State) :
    (a = .fail ∧ afterPoll bit ready w a t =
      (t.setWait { w with state := .transportError }).raise .transportFailure) ∨
    (a = .bytes [] ∧ afterPoll bit ready w a t =
      (t.setWait { w with state := .transportError }).raise .incompleteRead) ∨
    (∃ b bs, a = .bytes (b :: bs) ∧ waitBusy bit b = true ∧ afterPoll bit ready w a t = t.moveTo .waitClock) ∨
    (∃ b bs, a = .bytes (b :: bs) ∧ waitBusy bit b = false ∧
      afterPoll bit ready w a t = ready b (t.setWait { w with state := .ready })) := by
  cases a with
  | fail => exact .inl ⟨rfl, rfl⟩
  | bytes bs =>
    cases bs with
    | nil => exact .inr (.inl ⟨rfl, rfl⟩)
    | cons b bs =>
      cases hb : waitBusy bit b with
      | true => exact .inr (.inr (.inl ⟨b, bs, rfl, hb, by simp [afterPoll, byteAt, hb]⟩))
      | false => exact .inr (.inr (.inr ⟨b, bs, rfl, hb, by simp [afterPoll, byteAt, hb]⟩))

/-- All that the timeout test can lead to. -/
theorem afterClock_cases (w : Wait) (t : Nat) (u : State) :
    (w.timeout.toNat < t - w.start ∧ afterClock w t u = (u.setWait { w with state := .timedOut }).raise .timeout) ∨
    (t - w.start ≤ w.timeout.toNat ∧ afterClock w t u = u.moveTo .waitPause) := by
  by_cases h : w.timeout.toNat < t - w.start
  · exact .inl ⟨h, by simp [afterClock, h]⟩
  · exact .inr ⟨by omega, by simp [afterClock, h]⟩

/-- All that a step inside the loop of a wait can do. -/
theorem waitLoop_next {bit : WaitBit} {ready : Byte → State → State} {pos : Pos} {s u : State}
    (h : waitLoop bit ready pos s = .next u) :
    ∃ w, s.wait = some w ∧
      ((pos = .waitPoll ∧ memRead Addr.status 1 (afterPoll bit ready w) s = .next u) ∨
       (pos = .waitClock ∧ now (afterClock w) s = .next u) ∨
       (pos = .waitPause ∧ sleep Config.pollIntervalMs (·.moveTo .waitPoll) s = .next u)) := by
  unfold waitLoop at h
  split at h
  · next w hw => exact ⟨w, hw, .inl ⟨rfl, h⟩⟩
  · next w hw => exact ⟨w, hw, .inr (.inl ⟨rfl, h⟩)⟩
  · next w hw => exact ⟨w, hw, .inr (.inr ⟨rfl, h⟩)⟩
  · cases h

/-- All that the command write of an EEPROM request can lead to. -/
theorem afterEeCommand_cases (code : Byte) (wait ok : Bool) (t : State) :
    (ok = false ∧ afterEeCommand code wait ok t = (t.setEe .idle).raise .transportFailure) ∨
    (ok = true ∧ wait = false ∧
      afterEeCommand code wait ok t = ((t.setEe .cmdSent).setEe .done).finish (.result (zext32 code))) ∨
    (ok = true ∧ wait = true ∧
      afterEeCommand code wait ok t = ((t.setEe .cmdSent).setEe .polling).moveTo .waitEnter) := by
  cases ok <;> cases wait <;> simp [afterEeCommand]

/-- All that a step of an EEPROM request's pseudocode can do. -/
theorem eeSequence_next {code : Byte} {wait : Bool} {timeout : Word32} {pos : Pos} {s u : State}
    (h : eeSequence code wait timeout pos s = .next u) :
    (pos = .start ∧ memWrite Addr.eeCmd [code] (afterEeCommand code wait) s = .next u) ∨
    (pos = .waitEnter ∧ waitEnter .eeprom timeout s = .next u) ∨
    (pos ≠ .start ∧ pos ≠ .waitEnter ∧ waitLoop .eeprom (eeReady code) pos s = .next u) := by
  cases pos <;> simp_all [eeSequence]

/-- All that a step of a stand-alone wait can do. -/
theorem waitAlone_next {bit : WaitBit} {timeout : Word32} {pos : Pos} {s u : State}
    (h : waitAlone bit timeout pos s = .next u) :
    (pos = .start ∧ waitEnter bit timeout s = .next u) ∨
    (pos ≠ .start ∧ waitLoop bit waitReady pos s = .next u) := by
  cases pos <;> simp_all [waitAlone]

end Sys2Proof.Machine
end

