-- ==== Sys2Proof/Tests/Slice0.lean ====
section
/-! SUPPORT. The tests: words written out from the encodings of 30_encoding.md, ill-formed terms that the checks
refuse, one step of every request with the values of the spec's worked examples (40_codec.md, 41_session.md,
42_wait_eeprom.md, 95_test_vectors.md), and for every obligation with hypotheses a concrete state that meets them. -/

namespace Sys2Proof.Tests

open Sys2Proof Sys2Proof.Machine

/-! ### Small states -/

/-- The example parameters of 95_test_vectors.md. -/
def exampleParams : Params := ⟨1, 1, 0x40, 0x44, 0x48, 0x48, ⟨0⟩⟩

/-- An idle block with the example parameters, requests at its port and answers to come. -/
def idleWith (requests : List Word64) (answers : List Answer) : State :=
  { State.reset with
    params := exampleParams, busAddr := exampleParams.busAddr, requests := requests, answers := answers }

/-- A block running `i` at `pos` with answers to come. -/
def running (i : Instr) (pos : Pos) (answers : List Answer) : State :=
  { idleWith [] answers with phase := .run i pos }

/-- A block inside a wait that began at 0. -/
def waiting (i : Instr) (pos : Pos) (bit : WaitBit) (timeout : Word32) (ee : EeState) (answers : List Answer) : State :=
  { running i pos answers with wait := some ⟨.polling, 0, timeout, bit⟩, ee := ee }

/-- CFG_MIRROR after `CONFIGURE rate=MPS_1Hz, avg=AVG_8, sleep=1`. -/
def exampleMirror : CfgMirror := ⟨true, 0b011, 0b01, true⟩

/-- The next state of a result. -/
def nextOf : Result → Option State
  | .next t => some t
  | _ => none

/-- The response a result's state emits or has emitted. -/
def responseOf (r : Result) : Option Response :=
  (nextOf r).bind fun t =>
    match t.phase with
    | .run _ (.respond e) => some e
    | .idle => some t.rsp
    | _ => none

/-- The events a result's state has recorded. -/
def traceOf (r : Result) : Option (List Event) := (nextOf r).map (·.trace)

/-- A word by its fields IMM, D, F, OPC, with RSV 0 (30_encoding.md R80). -/
def word (imm : Word32) (d f opc : Byte) : Word64 := imm ++ (0x00#8 ++ (d ++ (f ++ opc)))

/-! ### Decoding: every constructor's word, written from 30_encoding.md R98 -/

theorem test_decode_command_codec :
    decode (word 0 0 0b00000111 0x01) = some (.encCmd .singleShot true) ∧
    decode (word 0 0xCA 0 0x02) = some (.decCmd 0xCA) := by decide

theorem test_decode_config_codec :
    decode (word 0 0 0b00101011 0x03) = some (.encCfg .mps1Hz .avg8 true) ∧
    decode (word 0 0x69 0 0x04) = some (.decCfg 0x69) := by decide

theorem test_decode_status_and_alert_codec :
    decode (word 0 0xA7 0 0x05) = some (.decStatus 0xA7) ∧
    decode (word 0 0 0b00000010 0x06) = some (.encAlert false .highAlarmLowAlarm) ∧
    decode (word 0 0x40 0 0x07) = some (.decAlert 0x40) := by decide

theorem test_decode_temperature_codec :
    decode (word 0x00001E01 0 0 0x08) = some (.decRaw 0x01 0x1E) ∧
    decode (word 0x00001E00 0 0 0x09) = some (.rawToC 7680) ∧
    decode (word 0x425C0000 0 0 0x0A) = some (.cToRaw 0x425C0000) ∧
    decode (word 0x000000A5 0x5A 0 0x0B) = some (.crc8Upd 0xA5 0x5A) := by decide

theorem test_decode_configuration_requests :
    decode (word 0 0 0b00011110 0x10) = some (.configure .mps1over8Hz .avg32 false) ∧
    decode (word 0 0 0b00000101 0x11) = some (.setMode .stop true) := by decide

theorem test_decode_temperature_requests :
    decode (word 0 0 0b00000010 0x12) = some (.readTemp false true) ∧
    decode (word 0 0 0 0x13) = some .singleShot := by decide

theorem test_decode_status_requests :
    decode (word 0 0 0 0x14) = some .readStatus ∧ decode (word 0 0 0 0x15) = some .isBusy ∧
    decode (word 0 0 0 0x16) = some .heaterOn ∧ decode (word 0 0 0 0x17) = some .heaterOff := by decide

theorem test_decode_alert_requests :
    decode (word 0 0 0b00000001 0x18) = some (.setAlertMode true .highAlarmLowClear) ∧
    decode (word 0 0 0 0x19) = some .getAlertMode ∧
    decode (word 0x42AA0000 0 0 0x1A) = some (.setHighLimit 0x42AA0000) ∧
    decode (word 0xC2200000 0 0 0x1B) = some (.setLowLimit 0xC2200000) ∧
    decode (word 0 0 0 0x1C) = some .getHighLimit ∧ decode (word 0 0 0 0x1D) = some .getLowLimit := by decide

theorem test_decode_identification_requests :
    decode (word 0 0 0 0x1E) = some .readDeviceId ∧ decode (word 0 0 0 0x1F) = some .readRomCode := by decide

theorem test_decode_user_and_scratch_requests :
    decode (word 0 3 0 0x20) = some (.readUserReg 3) ∧
    decode (word 0x0000005A 9 0 0x21) = some (.writeUserReg 9 0x5A) ∧
    decode (word 0 0 0 0x22) = some .readScratch ∧ decode (word 0 0 0 0x23) = some .readScratchExt ∧
    decode (word 0 0 0b00000001 0x24) = some (.setParasitic true) ∧
    decode (word 0 0 0 0x25) = some .lastError := by decide

theorem test_decode_eeprom_and_wait_requests :
    decode (word 50 0 0b00000001 0x30) = some (.eeCopyPage true 50) ∧
    decode (word 10 0 0b00000001 0x31) = some (.eeRecallPage true 10) ∧
    decode (word 0 0 0 0x32) = some (.eeFullRecall false 0) ∧
    decode (word 5 0 0b00000001 0x33) = some (.eeSoftReset true 5) ∧
    decode (word 20 0 0 0x34) = some (.waitConversion 20) ∧
    decode (word 0xFFFFFFFF 0 0 0x35) = some (.waitEeprom 0xFFFFFFFF) := by decide

/-- The words of 95_test_vectors.md 2.1. -/
theorem test_illegal_words_do_not_decode :
    decode 0x0000000000000000 = none ∧ decode 0x0000000000000036 = none ∧ decode 0x0000000001000014 = none ∧
    decode 0x0000000000000114 = none ∧ decode 0x0000000000004010 = none ∧ decode 0x0000000000080012 = none ∧
    decode 0x0000000100000013 = none ∧ decode 0x0000000100000025 = none := by decide

theorem test_table_word_is_decoded : decodeTableWord 64 0x2B10 = some (.configure .mps1Hz .avg8 true) := by decide

/-- The lines of 41_session.md's examples. -/
theorem test_assemble :
    assemble "CONFIGURE rate=MPS_1Hz, avg=AVG_8, sleep=1" = some [0x0000000000002B10] ∧
    assemble "TRIGGER_SINGLE" = some [0x0000000000000311] := by decide

/-! ### Smoke tests of the checks: ill-formed terms are refused -/

theorem test_legalWord_refuses_unassigned_opcode : legalWord 0x000000000000000C = false := by decide

theorem test_legalWord_refuses_reserved_bits : legalWord 0x0000000001000014 = false := by decide

theorem test_legalWord_accepts_a_legal_word : legalWord 0x0000010000000009 = true := by decide

theorem test_operandsInRange_refuses_index_10 :
    (Instr.readUserReg 10).operandsInRange = false ∧ (Instr.writeUserReg 10 0).operandsInRange = false ∧
    (Instr.readUserReg 9).operandsInRange = true := by decide

theorem test_operandsInRange_refuses_nan :
    (Instr.cToRaw 0x7F800001).operandsInRange = false ∧ (Instr.setHighLimit 0x7FC00000).operandsInRange = false ∧
    (Instr.setLowLimit 0xFFC00001).operandsInRange = false ∧ (Instr.cToRaw 0xFF800000).operandsInRange = true := by
  decide

theorem test_admissible_refuses_equal_codes :
    (Params.mk 1 1 0x40 0x40 0x48 0x48 ⟨0⟩).admissible = false ∧ exampleParams.admissible = true := by decide

theorem test_wellFormed_refuses_bad_responses :
    (Response.mk .ok .notChecked true 0 (List.replicate 11 0)).wellFormed = false ∧
    (Response.mk .ok .notChecked false 1 []).wellFormed = false ∧
    (Response.mk .timeout .notChecked true 1 [0]).wellFormed = false := by decide

theorem test_posFits_refuses_foreign_positions :
    PosFits .singleShot .waitPoll = false ∧ PosFits (.eeCopyPage false 0) .waitEnter = false ∧
    PosFits .readStatus .triggered = false := by decide

/-! ### Faults and the refusal -/

theorem test_overlong_answer_faults :
    exec .readStatus (running .readStatus .start [.read (.bytes [1, 2])]) = .fault .overlongAnswer := rfl

theorem test_foreign_answer_faults :
    exec .readStatus (running .readStatus .start [.slept]) = .fault .answerOutOfTurn := rfl

theorem test_stray_position_faults :
    exec .readStatus (running .readStatus .triggered []) = .fault .strayPosition := rfl

theorem test_second_request_is_refused :
    exec .isBusy (running .readStatus .start []) = .refused .requestWhileRunning := rfl

/-! ### Codec requests: one step from the start emits the response -/

theorem test_enc_cmd : responseOf (exec (.encCmd .singleShot true) (running (.encCmd .singleShot true) .start [])) =
    some (okResponse 0xCA [] .notChecked) := by decide

theorem test_dec_cmd_wrong_nibble_is_off :
    responseOf (exec (.decCmd 0xC5) (running (.decCmd 0xC5) .start [])) = some (okResponse 0x3 [] .notChecked) := by
  decide

theorem test_enc_cfg : responseOf (exec (.encCfg .mps1Hz .avg8 true) (running (.encCfg .mps1Hz .avg8 true) .start [])) =
    some (okResponse 0x69 [] .notChecked) := by decide

theorem test_dec_cfg_ignores_bits_2_1 :
    responseOf (exec (.decCfg 0xFF) (running (.decCfg 0xFF) .start [])) = some (okResponse 0x3F [] .notChecked) := by
  decide

theorem test_dec_status : responseOf (exec (.decStatus 0xA7) (running (.decStatus 0xA7) .start [])) =
    some (okResponse 0xA4 [] .notChecked) := by decide

theorem test_enc_alert : responseOf (exec (.encAlert true .highAlarmLowClear)
    (running (.encAlert true .highAlarmLowClear) .start [])) = some (okResponse 0x80 [] .notChecked) := by decide

theorem test_dec_alert : responseOf (exec (.decAlert 0x40) (running (.decAlert 0x40) .start [])) =
    some (okResponse 0x2 [] .notChecked) := by decide

theorem test_dec_raw_extends_the_sign :
    responseOf (exec (.decRaw 0x00 0x80) (running (.decRaw 0x00 0x80) .start [])) =
      some (okResponse 0xFFFF8000 [] .notChecked) := by decide

theorem test_raw_to_c : responseOf (exec (.rawToC 0xE6FF) (running (.rawToC 0xE6FF) .start [])) =
    some (okResponse 0xBB800000 [] .notChecked) := by decide

theorem test_raw_to_c_zero : responseOf (exec (.rawToC 0xE700) (running (.rawToC 0xE700) .start [])) =
    some (okResponse 0 [] .notChecked) := by decide

theorem test_c_to_raw_tie_rounds_away :
    responseOf (exec (.cToRaw 0x41C7FC00) (running (.cToRaw 0x41C7FC00) .start [])) =
      some (okResponse 0xFFFFFFFF [] .notChecked) := by decide

theorem test_c_to_raw_nan :
    responseOf (exec (.cToRaw 0xFFC00001) (running (.cToRaw 0xFFC00001) .start [])) =
      some (errorResponse .parameterError) := by decide

theorem test_crc8_upd : responseOf (exec (.crc8Upd 0x5A 0xA5) (running (.crc8Upd 0x5A 0xA5) .start [])) =
    some (okResponse 0xAC [] .notChecked) := by decide

/-! ### Session requests -/

theorem test_configure_writes_the_mirror :
    (nextOf (exec (.configure .mps1Hz .avg8 true)
      (running (.configure .mps1Hz .avg8 true) .start [.written true]))).map (·.cfg) = some exampleMirror := by decide

theorem test_configure_failure :
    (nextOf (exec (.configure .mps1Hz .avg8 true)
      (running (.configure .mps1Hz .avg8 true) .start [.written false]))).map (fun t => (t.cfg, t.phase)) =
    some (⟨false, 0, 0, false⟩,
      .run (.configure .mps1Hz .avg8 true) (.respond (errorResponse .transportFailure))) := by decide

theorem test_set_mode :
    (nextOf (exec (.setMode .singleShot false)
      (running (.setMode .singleShot false) .start [.written true]))).map (fun t => (t.mode, t.trace)) =
    some (⟨true, 0b11⟩, [.memWrite 0x04 [0xC0] true]) := by decide

theorem test_read_temp_sleeps_first :
    traceOf (exec (.readTemp true true)
      { running (.readTemp true true) .start [.slept] with cfg := exampleMirror }) = some [.sleep 7] := by decide

theorem test_read_temp_converts :
    responseOf (exec (.readTemp true true)
      (running (.readTemp true true) .delayed [.read (.bytes [0x80, 0x0C, 0x5E])])) =
    some (okResponse 0x42160000 [0x80, 0x0C] .matched) := by decide +kernel

theorem test_single_shot_trigger :
    (nextOf (exec .singleShot (running .singleShot .start [.written true]))).map (fun t => (t.mode, t.trace)) =
    some (⟨true, 0b11⟩, [.memWrite 0x04 [0xC0] true]) := by decide

theorem test_single_shot_mismatch :
    responseOf (exec .singleShot (running .singleShot .delayed [.read (.bytes [0x00, 0x1E, 0x5D])])) =
    some ⟨.integrityFailure, .mismatch, false, 0, []⟩ := by decide +kernel

theorem test_read_status :
    responseOf (exec .readStatus (running .readStatus .start [.read (.bytes [0x23])])) =
    some (okResponse 0x20 [0x23] .notChecked) := by decide

theorem test_is_busy_failure :
    responseOf (exec .isBusy (running .isBusy .start [.read .fail])) =
    some ⟨.transportFailure, .notChecked, true, 1, []⟩ := by decide

theorem test_is_busy_eeprom :
    responseOf (exec .isBusy (running .isBusy .start [.read (.bytes [0x10])])) =
    some (okResponse 1 [0x10] .notChecked) := by decide

theorem test_heater_on :
    traceOf (exec .heaterOn (running .heaterOn (.commandRead 0xC0) [.written true])) =
    some [.memWrite 0x04 [0xCA] true] := by decide

theorem test_heater_off :
    traceOf (exec .heaterOff (running .heaterOff (.commandRead 0x7A) [.written true])) =
    some [.memWrite 0x04 [0x70] true] := by decide

theorem test_set_alert_mode :
    traceOf (exec (.setAlertMode true .highAlarmLowClear)
      (running (.setAlertMode true .highAlarmLowClear) .start [.written true])) =
    some [.memWrite 0x06 [0x80] true] := by decide

theorem test_get_alert_mode :
    responseOf (exec .getAlertMode (running .getAlertMode .start [.read (.bytes [0x40])])) =
    some (okResponse 0x2 [0x40] .notChecked) := by decide

theorem test_set_high_limit :
    traceOf (exec (.setHighLimit 0x42AA0000) (running (.setHighLimit 0x42AA0000) .start [.written true])) =
    some [.memWrite 0x07 [0x00, 0x3C] true] := by decide

theorem test_set_low_limit :
    traceOf (exec (.setLowLimit 0xC2200000) (running (.setLowLimit 0xC2200000) .start [.written true])) =
    some [.memWrite 0x09 [0x00, 0xBF] true] := by decide

theorem test_get_high_limit :
    responseOf (exec .getHighLimit (running .getHighLimit .start [.read (.bytes [0x00, 0x3C])])) =
    some (okResponse 0x42AA0000 [0x00, 0x3C] .notChecked) := by decide

theorem test_get_low_limit :
    responseOf (exec .getLowLimit (running .getLowLimit .start [.read (.bytes [0x00, 0xBF])])) =
    some (okResponse 0xC2200000 [0x00, 0xBF] .notChecked) := by decide

theorem test_read_device_id :
    responseOf (exec .readDeviceId (running .readDeviceId .start [.read (.bytes [0x34, 0x12])])) =
    some (okResponse 0x1234 [0x34, 0x12] .notChecked) := by decide

theorem test_read_rom_code :
    responseOf (exec .readRomCode (running .readRomCode .start [.read (.bytes [0x11, 0x22, 0x33, 0x44, 0x55])])) =
    some (okResponse 0 [0x11, 0x22, 0x33, 0x44, 0x55] .notChecked) := by decide

theorem test_read_user_reg :
    traceOf (exec (.readUserReg 3) (running (.readUserReg 3) .start [.read (.bytes [0xA5])])) =
    some [.memRead 0x0F 1 (.bytes [0xA5])] := by decide

theorem test_read_user_reg_index_10 :
    responseOf (exec (.readUserReg 10) (running (.readUserReg 10) .start [])) =
    some (errorResponse .parameterError) := by decide

theorem test_write_user_reg :
    traceOf (exec (.writeUserReg 9 0x5A) (running (.writeUserReg 9 0x5A) .start [.written true])) =
    some [.memWrite 0x15 [0x5A] true] := by decide

theorem test_read_scratch_mismatch :
    responseOf (exec .readScratch (running .readScratch .start
      [.read (.bytes [0x00, 0xC0, 0x69, 0x80, 0x00, 0x3C, 0x00, 0xBF, 0x00])])) =
    some (okResponse 0xA600 [0x00, 0xC0, 0x69, 0x80, 0x00, 0x3C, 0x00, 0xBF] .mismatch) := by decide +kernel

theorem test_read_scratch_ext :
    responseOf (exec .readScratchExt (running .readScratchExt .start
      [.read (.bytes [1, 2, 3, 4, 5, 6, 7, 8, 9, 10, 0x57])])) =
    some (okResponse 0x5757 [1, 2, 3, 4, 5, 6, 7, 8, 9, 10] .matched) := by decide +kernel

theorem test_set_parasitic :
    traceOf (exec (.setParasitic true) (running (.setParasitic true) .start [.written true])) =
    some [.memWrite 0x63 [0x0A] true] := by decide

theorem test_last_error :
    responseOf (exec .lastError { running .lastError .start [] with lastError := .transportFailure }) =
    some (okResponse 1 [] .notChecked) := by decide

/-! ### EEPROM and wait requests -/

theorem test_ee_copy_page :
    (nextOf (exec (.eeCopyPage true 50) (running (.eeCopyPage true 50) .start [.written true]))).map
      (fun t => (t.trace, t.ee)) = some ([.memWrite 0x17 [0x40] true], .polling) := by decide

theorem test_ee_recall_page :
    responseOf (exec (.eeRecallPage true 10)
      (waiting (.eeRecallPage true 10) .waitPoll .eeprom 10 .polling [.read (.bytes [0x00])])) =
    some (okResponse 0x44 [0x00] .notChecked) := by decide

theorem test_ee_full_recall :
    responseOf (exec (.eeFullRecall false 0) (running (.eeFullRecall false 0) .start [.written true])) =
    some (okResponse 0x48 [] .notChecked) := by decide

theorem test_ee_soft_reset :
    responseOf (exec (.eeSoftReset true 5)
      (waiting (.eeSoftReset true 5) .waitPoll .eeprom 5 .polling [.read .fail])) =
    some (errorResponse .transportFailure) := by decide

theorem test_wait_conversion_ignores_eeprom_busy :
    responseOf (exec (.waitConversion 20)
      (waiting (.waitConversion 20) .waitPoll .conversion 20 .idle [.read (.bytes [0x10])])) =
    some (okResponse 0 [0x10] .notChecked) := by decide

theorem test_wait_eeprom_times_out :
    responseOf (exec (.waitEeprom 0) (waiting (.waitEeprom 0) .waitClock .eeprom 0 .idle [.time 1])) =
    some (errorResponse .timeout) := by decide

theorem test_wait_eeprom_does_not_time_out_at_the_limit :
    (nextOf (exec (.waitEeprom 3) (waiting (.waitEeprom 3) .waitClock .eeprom 3 .idle [.time 3]))).map (·.phase) =
    some (.run (.waitEeprom 3) .waitPause) := by decide

/-! ### The machine -/

theorem test_packed_response : (okResponse 0xCA [] .notChecked).pack = 0x0000000000CA0020 := by decide

/-- The presented word is accepted by the very next step after reset. -/
theorem test_fetch_word_runs :
    step (State.reset.withFetchWord 64 0x2B10) =
      exec (.configure .mps1Hz .avg8 true) (State.reset.withFetchWord 64 0x2B10) := rfl

theorem test_crc_of_temperature_bytes : crc8 [0x00, 0x1E] = 0x5C := by decide +kernel

/-! ### Witnesses: for every obligation with hypotheses, a concrete state and operands that meet them together -/

theorem witness_EncodeOfDecodeIsTheWord : decode 0x0000000000000701 = some (.encCmd .singleShot true) := by decide

theorem witness_DecoderFollowsTheOpcodeMap :
    (Instr.encCmd .singleShot true).row ∈ opcodeRows ∧
    (0x0000000000000701 : Word64) &&& (Instr.encCmd .singleShot true).row.mask =
      (Instr.encCmd .singleShot true).row.pattern := by decide

theorem witness_AssembledWordsAreLegal : assemble "CRC8 0x01, 0xFF" = some [0x000000000001000B, 0x0000003100FF000B] := by
  decide

theorem witness_Crc8PseudoInstructionChainsAccumulators : ([0x01, 0xFF] : List Byte)[1]? = some 0xFF := by decide

theorem witness_StepRunsTheDecodedInstruction_idle :
    (idleWith [0x14] []).phase = .idle ∧ (idleWith [0x14] []).requests = [0x14] ∧
    decode 0x14 = some .readStatus := ⟨rfl, rfl, by decide⟩

theorem witness_StepRunsTheDecodedInstruction_running :
    (running .readStatus .start []).phase = .run .readStatus .start := rfl

theorem witness_StepRunsTheDecodedInstruction_waiting :
    (idleWith [] []).phase = .idle ∧ (idleWith [] []).requests = [] := ⟨rfl, rfl⟩

theorem witness_AcceptanceStartsTheRequest : (idleWith [0x14] []).phase = .idle := rfl

theorem witness_IllegalWordIsParameterError :
    (idleWith [0x0000000100000025] []).phase = .idle ∧
    (idleWith [0x0000000100000025] []).requests = [0x0000000100000025] ∧
    ∀ r ∈ opcodeRows, (0x0000000100000025 : Word64) &&& r.mask ≠ r.pattern := ⟨rfl, rfl, by decide⟩

/-- A running request whose response is due. -/
def due : State := running .isBusy (.respond ⟨.transportFailure, .notChecked, true, 1, []⟩) []

theorem witness_DueResponseIsEmitted :
    due.phase = .run .isBusy (.respond ⟨.transportFailure, .notChecked, true, 1, []⟩) := rfl

theorem witness_LastErrorFollowsTheEmittedResponse_emission :
    ∃ t, step due = .next t ∧ due.phase ≠ .idle ∧ t.phase = .idle ∧ t.lastError = .transportFailure :=
  ⟨_, rfl, by decide, rfl, rfl⟩

theorem witness_LastErrorFollowsTheEmittedResponse_other :
    ∃ t, step (idleWith [0x25] []) = .next t ∧ ((idleWith [0x25] []).phase = .idle ∨ t.phase ≠ .idle) ∧
      t.lastError = .ok := ⟨_, rfl, .inl rfl, rfl⟩

theorem witness_LastErrorFollowsTheEmittedResponse_illegal :
    ({ idleWith [] [] with phase := .runIllegal 0x25 } : State).phase = .runIllegal 0x25 := rfl

/-- A wait of 3 ms on the EEPROM-busy bit, at its status read, after its start at 0. -/
def polling : State :=
  { waiting (.waitEeprom 3) .waitPoll .eeprom 3 .idle [.read (.bytes [0x10]), .time 0] with trace := [.now 0] }

theorem polling_wellPhased : WellPhased polling :=
  ⟨⟨rfl, by decide, ⟨_, rfl, rfl, rfl⟩, rfl, ⟨0, rfl⟩, trivial⟩, rfl, rfl⟩

theorem witness_StepKeepsTheSequencerInvariant :
    WellPhased polling ∧ ∃ t, step polling = .next t ∧ t ≠ polling :=
  ⟨polling_wellPhased, _, rfl, by decide⟩

theorem witness_StepNeverStopsUnderTheTransferContract : WellPhased polling ∧ NextAnswerFits polling := by
  refine ⟨polling_wellPhased, ?_⟩
  intro i pos p a rest hp hprim ha
  cases hp; cases hprim; cases ha; rfl

theorem witness_StepPerformsThePrimitiveOfItsPosition :
    polling.phase = .run (.waitEeprom 3) .waitPoll ∧ PosFits (.waitEeprom 3) .waitPoll = true ∧
    primitiveAt (.waitEeprom 3) polling .waitPoll = some (.memRead 0x03 1) ∧
    polling.answers = [.read (.bytes [0x10]), .time 0] ∧ ∃ t, step polling = .next t :=
  ⟨rfl, rfl, rfl, rfl, _, rfl⟩

theorem witness_UnansweredPrimitiveLeavesTheStateUnchanged :
    WellPhased (running .readStatus .start []) ∧
    (running .readStatus .start []).phase = .run .readStatus .start ∧
    primitiveAt .readStatus (running .readStatus .start []) .start = some (.memRead 0x03 1) ∧
    (running .readStatus .start []).answers = [] :=
  ⟨⟨⟨rfl, fun _ => rfl, rfl, rfl, rfl, trivial⟩, rfl, rfl⟩, rfl, rfl, rfl⟩

theorem witness_RequestsAreTakenOnlyInIdle_running :
    ∃ t, step polling = .next t ∧ polling.phase ≠ .idle := ⟨_, rfl, by decide⟩

theorem witness_RequestsAreTakenOnlyInIdle_idle :
    ∃ t, step (idleWith [0x14, 0x15] []) = .next t ∧ (idleWith [0x14, 0x15] []).phase = .idle ∧
      t.requests = [0x15] := ⟨_, rfl, rfl, rfl⟩

/-- SINGLE_SHOT at its start, its trigger about to fail. -/
def failingTrigger : State := running .singleShot .start [.written false]

theorem failingTrigger_wellPhased : WellPhased failingTrigger :=
  ⟨⟨rfl, fun _ => rfl, rfl, rfl, rfl, trivial⟩, rfl, rfl⟩

theorem witness_TransfersAreThoseOfTheTable :
    WellPhased failingTrigger ∧ failingTrigger.phase = .run .singleShot .start ∧
    ∃ t, steps 1 failingTrigger = .next t ∧ (∃ pos, t.phase = .run .singleShot pos) ∧
      t.trace = [] ++ Event.memWrite 0x04 [0xC0] false :: [] ∧
      (Event.memWrite 0x04 [0xC0] false).failed = true :=
  ⟨failingTrigger_wellPhased, rfl, _, rfl, ⟨_, rfl⟩, rfl, rfl⟩

theorem witness_TransfersAreThoseOfTheTable_refused_operand :
    (running (.readUserReg 10) .start []).phase = .run (.readUserReg 10) .start ∧
    steps 0 (running (.readUserReg 10) .start []) = .next (running (.readUserReg 10) .start []) ∧
    (Instr.readUserReg 10).operandsInRange = false := ⟨rfl, rfl, rfl⟩

theorem witness_ResetValues : (idleWith [0x14] []).blockReset = (idleWith [0x14] []).blockReset := rfl

theorem witness_CfgMirrorIsWrittenOnlyByConfigure :
    ∃ t, step (running (.configure .mps1Hz .avg8 true) .start [.written true]) = .next t ∧
      t.cfg ≠ (running (.configure .mps1Hz .avg8 true) .start [.written true]).cfg := ⟨_, rfl, by decide⟩

theorem witness_ModeMirrorIsWrittenOnlyByTriggers_setMode :
    ∃ t, step (running (.setMode .stop true) .start [.written true]) = .next t ∧
      t.mode ≠ (running (.setMode .stop true) .start [.written true]).mode := ⟨_, rfl, by decide⟩

theorem witness_ModeMirrorIsWrittenOnlyByTriggers_singleShot :
    ∃ t, step (running .singleShot .start [.written true]) = .next t ∧
      t.mode ≠ (running .singleShot .start [.written true]).mode := ⟨_, rfl, by decide⟩

theorem witness_BusAddrIsConstantAndHasNoEffect :
    ∃ t, step polling = .next t ∧ step { polling with busAddr := ⟨7⟩ } = .next { t with busAddr := ⟨7⟩ } :=
  ⟨_, rfl, rfl⟩

theorem witness_CommandCodecRequests_enc : (running (.encCmd .singleShot true) .start []).phase = .run (.encCmd .singleShot true) .start := rfl

theorem witness_CommandCodecRequests_dec : (running (.decCmd 0xFF) .start []).phase = .run (.decCmd 0xFF) .start := rfl

theorem witness_ConfigCodecRequests_enc : (running (.encCfg .mps1over16Hz .avg32 true) .start []).phase = .run (.encCfg .mps1over16Hz .avg32 true) .start := rfl

theorem witness_ConfigCodecRequests_dec : (running (.decCfg 0xFF) .start []).phase = .run (.decCfg 0xFF) .start := rfl

theorem witness_StatusAndRawCodecRequests_status : (running (.decStatus 0xFF) .start []).phase = .run (.decStatus 0xFF) .start := rfl

theorem witness_StatusAndRawCodecRequests_raw : (running (.decRaw 0xFF 0x80) .start []).phase = .run (.decRaw 0xFF 0x80) .start := rfl

theorem witness_AlertCodecRequests_enc : (running (.encAlert true .highAlarmLowAlarm) .start []).phase = .run (.encAlert true .highAlarmLowAlarm) .start := rfl

theorem witness_AlertCodecRequests_dec : (running (.decAlert 0x3F) .start []).phase = .run (.decAlert 0x3F) .start := rfl

theorem witness_RawToCelsiusRequestIsExact :
    (running (.rawToC 0xE700) .start []).phase = .run (.rawToC 0xE700) .start ∧ (0xE700#16).toInt = -6400 ∧
    (0x8000#16).toInt ≠ -6400 := ⟨rfl, by decide, by decide⟩

theorem witness_CelsiusToRawRequestRoundsOnceAndSaturates :
    (running (.cToRaw 0x7F7FFFFF) .start []).phase = .run (.cToRaw 0x7F7FFFFF) .start ∧
    (0x7F7FFFFF#32).toNat % 2 ^ 31 < 0x7F800000 ∧ 0x7F800000 < (0x7F800001#32).toNat % 2 ^ 31 ∧
    0x7F800000 < (0xFFFFFFFF#32).toNat % 2 ^ 31 := ⟨rfl, by decide, by decide, by decide⟩

theorem witness_CrcUpdateRequest :
    (running (.crc8Upd 0xFF 0x00) .start []).phase = .run (.crc8Upd 0xFF 0x00) .start := rfl

/-- 124.5, the upper end of the grid; -54.0 is the lower end. -/
theorem witness_GridCelsiusRoundTrip :
    f32Exponent 0x42F90000 ≠ 255 ∧ f32Exact 0x42F90000 * 256 = 31872 * 2 ^ 149 ∧
    f32Exponent 0xC2580000 ≠ 255 ∧ f32Exact 0xC2580000 * 256 = -13824 * 2 ^ 149 := by decide +kernel

theorem witness_CelsiusToRawIsMonotone :
    f32Exponent 0xC2CE0100 ≠ 255 ∧ f32Exponent 0x4318FF80 ≠ 255 ∧ f32Exact 0xC2CE0100 ≤ f32Exact 0x4318FF80 ∧
    celsiusToRaw 0xC2CE0100 = some 0x8000 ∧ celsiusToRaw 0x4318FF80 = some 0x7FFF := by decide +kernel

theorem witness_ChecksumIsLinearAndCancels :
    ([0x00, 0x1E] : List Byte).length = ([0x80, 0x0C] : List Byte).length := rfl

theorem witness_ChecksumDetectsEverySingleBitFlip : 7 < 8 := by decide

theorem witness_PackedResponseLayout :
    (okResponse 0xFFFFFFFF (List.replicate 10 0xFF) .mismatch).wellFormed = true := by decide

theorem witness_ConfigureWritesConfigThenMirror :
    (running (.configure .mps1over16Hz .avg32 true) .start [.written true]).phase =
      .run (.configure .mps1over16Hz .avg32 true) .start ∧
    (0xF9#8).toNat = 32 * Rate.mps1over16Hz.code.toNat + 8 * Avg.avg32.code.toNat + true.toNat ∧
    (running (.configure .mps1over16Hz .avg32 true) .start [.written true]).answers = [.written true] :=
  ⟨rfl, by decide, rfl⟩

theorem witness_SetModeWritesCommandThenMirror :
    (running (.setMode .singleShot true) .start [.written false]).phase = .run (.setMode .singleShot true) .start ∧
    (0xCA#8).toNat = (64 * Mode.singleShot.code.toNat + if true then 10 else 0) ∧
    (running (.setMode .singleShot true) .start [.written false]).answers = [.written false] :=
  ⟨rfl, by decide, rfl⟩

theorem witness_ReadTempSleepsReadsAndConverts_sleep :
    (running (.readTemp true false) .start [.slept]).phase = .run (.readTemp true false) .start ∧
    (running (.readTemp true false) .start [.slept]).answers = [.slept] := ⟨rfl, rfl⟩

theorem witness_ReadTempSleepsReadsAndConverts_plain :
    (running (.readTemp false false) .start [.read (.bytes [0x00, 0x80])]).phase = .run (.readTemp false false) .start ∧
    (running (.readTemp false false) .start [.read (.bytes [0x00, 0x80])]).answers = [.read (.bytes [0x00, 0x80])] := ⟨rfl, rfl⟩

theorem witness_ReadTempSleepsReadsAndConverts_checked :
    (running (.readTemp true true) .delayed [.read (.bytes [0x80, 0x0C, 0x5E])]).phase = .run (.readTemp true true) .delayed ∧
    (running (.readTemp true true) .delayed [.read (.bytes [0x80, 0x0C, 0x5E])]).answers = [.read (.bytes [0x80, 0x0C, 0x5E])] := ⟨rfl, rfl⟩

theorem witness_ReadTempSleepsReadsAndConverts_short :
    (running (.readTemp false true) .start [.read (.bytes [0x80, 0x0C])]).phase = .run (.readTemp false true) .start ∧
    (running (.readTemp false true) .start [.read (.bytes [0x80, 0x0C])]).answers = [.read (.bytes [0x80, 0x0C])] := ⟨rfl, rfl⟩

theorem witness_SingleShotTriggersSleepsAndVerifies_trigger :
    (running (.singleShot) .start [.written true]).phase = .run (.singleShot) .start ∧
    (running (.singleShot) .start [.written true]).answers = [.written true] := ⟨rfl, rfl⟩

theorem witness_SingleShotTriggersSleepsAndVerifies_sleep :
    (running (.singleShot) .triggered [.slept]).phase = .run (.singleShot) .triggered ∧
    (running (.singleShot) .triggered [.slept]).answers = [.slept] := ⟨rfl, rfl⟩

theorem witness_SingleShotTriggersSleepsAndVerifies_read :
    (running (.singleShot) .delayed [.read (.bytes [0x00, 0x1E, 0x5C])]).phase = .run (.singleShot) .delayed ∧
    (running (.singleShot) .delayed [.read (.bytes [0x00, 0x1E, 0x5C])]).answers = [.read (.bytes [0x00, 0x1E, 0x5C])] := ⟨rfl, rfl⟩

/-- A SINGLE_SHOT request waiting at the port. -/
def wholeShot : State := idleWith [0x13] [.written true, .slept, .read (.bytes [0x00, 0x1E, 0x5C])]

theorem witness_WholeSingleShotRequest :
    WellPhased wholeShot ∧ wholeShot.phase = .idle ∧ wholeShot.requests = [0x0000000000000013] ∧
    wholeShot.answers = [.written true, .slept, .read (.bytes [0x00, 0x1E, 0x5C])] :=
  ⟨⟨⟨rfl, rfl⟩, rfl, rfl⟩, rfl, rfl, rfl⟩

theorem witness_ReadStatusReturnsTheSnapshot :
    (running (.readStatus) .start [.read (.bytes [0xFF])]).phase = .run (.readStatus) .start ∧
    (running (.readStatus) .start [.read (.bytes [0xFF])]).answers = [.read (.bytes [0xFF])] := ⟨rfl, rfl⟩

theorem witness_ReadStatusReturnsTheSnapshot_short :
    (running (.readStatus) .start [.read (.bytes [])]).phase = .run (.readStatus) .start ∧
    (running (.readStatus) .start [.read (.bytes [])]).answers = [.read (.bytes [])] := ⟨rfl, rfl⟩

theorem witness_IsBusyIsConservative :
    (running (.isBusy) .start [.read (.bytes [0x30])]).phase = .run (.isBusy) .start ∧
    (running (.isBusy) .start [.read (.bytes [0x30])]).answers = [.read (.bytes [0x30])] := ⟨rfl, rfl⟩

theorem witness_IsBusyIsConservative_fail :
    (running (.isBusy) .start [.read .fail]).phase = .run (.isBusy) .start ∧
    (running (.isBusy) .start [.read .fail]).answers = [.read .fail] := ⟨rfl, rfl⟩

theorem witness_IsBusyIsConservative_short :
    (running (.isBusy) .start [.read (.bytes [])]).phase = .run (.isBusy) .start ∧
    (running (.isBusy) .start [.read (.bytes [])]).answers = [.read (.bytes [])] := ⟨rfl, rfl⟩

theorem witness_HeaterRequestsKeepTheUpperNibble_read :
    (running (.heaterOn) .start [.read (.bytes [0xFF])]).phase = .run (.heaterOn) .start ∧
    (running (.heaterOn) .start [.read (.bytes [0xFF])]).answers = [.read (.bytes [0xFF])] := ⟨rfl, rfl⟩

theorem witness_HeaterRequestsKeepTheUpperNibble_write :
    (running .heaterOff (.commandRead 0xFF) [.written true]).phase = .run .heaterOff (.commandRead 0xFF) ∧
    (0xF0#8).toNat = (0xFF#8).toNat / 16 * 16 + 0 ∧ (0xFA#8).toNat = (0xFF#8).toNat / 16 * 16 + 10 :=
  ⟨rfl, by decide, by decide⟩

theorem witness_AlertAndParasiticWrites_alert :
    (running (.setAlertMode true .highAlarmLowAlarm) .start [.written true]).phase =
      .run (.setAlertMode true .highAlarmLowAlarm) .start ∧
    (0xC0#8).toNat = 128 * exampleParams.alertEnLevel.toNat + 64 * exampleParams.alertHalaLevel.toNat :=
  ⟨rfl, by decide⟩

theorem witness_AlertAndParasiticWrites_parasitic :
    (running (.setParasitic false) .start [.written true]).phase = .run (.setParasitic false) .start ∧
    (running (.setParasitic false) .start [.written true]).answers = [.written true] := ⟨rfl, rfl⟩

theorem witness_GetAlertModeDecodesByTheParameters :
    (running (.getAlertMode) .start [.read (.bytes [0x3F])]).phase = .run (.getAlertMode) .start ∧
    (running (.getAlertMode) .start [.read (.bytes [0x3F])]).answers = [.read (.bytes [0x3F])] := ⟨rfl, rfl⟩

theorem witness_LimitWritesAreOneLittleEndianTransfer :
    (running (.setLowLimit 0xFF800000) .start [.written true]).phase = .run (.setLowLimit 0xFF800000) .start ∧
    (0xFF800000#32).toNat % 2 ^ 31 ≤ 0x7F800000 ∧
    (running (.setLowLimit 0xFF800000) .start [.written true]).answers = [.written true] :=
  ⟨rfl, by decide, rfl⟩

theorem witness_LimitWritesAreOneLittleEndianTransfer_nan :
    (running (.setHighLimit 0x7F800001) .start []).phase = .run (.setHighLimit 0x7F800001) .start ∧
    0x7F800000 < (0x7F800001#32).toNat % 2 ^ 31 := ⟨rfl, by decide⟩

theorem witness_LimitReadsConvertTheLittleEndianPair :
    (running (.getLowLimit) .start [.read (.bytes [0x00, 0xBF])]).phase = .run (.getLowLimit) .start ∧
    (running (.getLowLimit) .start [.read (.bytes [0x00, 0xBF])]).answers = [.read (.bytes [0x00, 0xBF])] := ⟨rfl, rfl⟩

theorem witness_IdentificationReads_device :
    (running (.readDeviceId) .start [.read (.bytes [0xFF, 0xFF])]).phase = .run (.readDeviceId) .start ∧
    (running (.readDeviceId) .start [.read (.bytes [0xFF, 0xFF])]).answers = [.read (.bytes [0xFF, 0xFF])] := ⟨rfl, rfl⟩

theorem witness_IdentificationReads_rom :
    (running (.readRomCode) .start [.read (.bytes [1, 2, 3, 4, 5])]).phase = .run (.readRomCode) .start ∧
    (running (.readRomCode) .start [.read (.bytes [1, 2, 3, 4, 5])]).answers = [.read (.bytes [1, 2, 3, 4, 5])] := ⟨rfl, rfl⟩

theorem witness_UserRegisterAccess_read :
    (running (.readUserReg 9) .start [.read (.bytes [0xA5])]).phase = .run (.readUserReg 9) .start ∧
    (9#8).toNat ≤ 9 ∧ (running (.readUserReg 9) .start [.read (.bytes [0xA5])]).answers = [.read (.bytes [0xA5])] :=
  ⟨rfl, by decide, rfl⟩

theorem witness_UserRegisterAccess_write :
    (running (.writeUserReg 0 0xFF) .start [.written true]).phase = .run (.writeUserReg 0 0xFF) .start ∧
    (0#8).toNat ≤ 9 := ⟨rfl, by decide⟩

theorem witness_UserRegisterAccess_refused :
    (running (.writeUserReg 10 0) .start []).phase = .run (.writeUserReg 10 0) .start ∧ 9 < (10#8).toNat :=
  ⟨rfl, by decide⟩

theorem witness_ScratchReadsReportTheChecksum :
    (running .readScratch .start [.read (.bytes ([0, 0, 0, 0, 0, 0, 0, 0] ++ [0]))]).phase = .run .readScratch .start ∧
    ([0, 0, 0, 0, 0, 0, 0, 0] : List Byte).length = 8 := ⟨rfl, rfl⟩

theorem witness_ScratchReadsReportTheChecksum_ext :
    (running .readScratchExt .start [.read (.bytes [0, 0, 0])]).phase = .run .readScratchExt .start ∧
    ([0, 0, 0] : List Byte).length < 10 + 1 := ⟨rfl, by decide⟩

theorem witness_LastErrorIsReadUnchanged :
    (running .lastError .start []).phase = .run .lastError .start := rfl

theorem witness_EepromCommandIsSent :
    eeCode (running (.eeCopyPage true 50) .start [.written true]).params (.eeCopyPage true 50) = some 0x40 ∧
    (running (.eeCopyPage true 50) .start [.written true]).phase = .run (.eeCopyPage true 50) .start ∧
    (running (.eeCopyPage true 50) .start [.written true]).answers = [.written true] := ⟨rfl, rfl, rfl⟩

theorem witness_EepromCommandIsSent_fail :
    eeCode (running (.eeSoftReset false 0) .start [.written false]).params (.eeSoftReset false 0) = some 0x48 ∧
    (running (.eeSoftReset false 0) .start [.written false]).answers = [.written false] := ⟨rfl, rfl⟩

theorem witness_WaitEntryRecordsTheStart :
    waitOf (.eeRecallPage true 10) = some (.eeprom, 10) ∧
    (running (.eeRecallPage true 10) .waitEnter [.time 100]).phase =
      .run (.eeRecallPage true 10) (waitEntry (.eeRecallPage true 10)) ∧
    (running (.eeRecallPage true 10) .waitEnter [.time 100]).answers = [.time 100] := ⟨rfl, rfl, rfl⟩

theorem witness_WaitPollsInOrder_poll :
    waitOf (.waitEeprom 3) = some (.eeprom, 3) ∧ polling.wait = some ⟨.polling, 0, 3, .eeprom⟩ ∧
    polling.phase = .run (.waitEeprom 3) .waitPoll ∧ polling.answers = [.read (.bytes [0x10]), .time 0] ∧
    (0x10#8).getLsbD WaitBit.eeprom.pos = true ∧ (0x20#8).getLsbD WaitBit.eeprom.pos = false :=
  ⟨rfl, rfl, rfl, rfl, by decide, by decide⟩

theorem witness_WaitPollsInOrder_clock :
    waitOf (.waitConversion 3) = some (.conversion, 3) ∧
    (waiting (.waitConversion 3) .waitClock .conversion 3 .idle [.time 3]).wait =
      some ⟨.polling, 0, 3, .conversion⟩ ∧
    (waiting (.waitConversion 3) .waitClock .conversion 3 .idle [.time 3]).phase =
      .run (.waitConversion 3) .waitClock ∧ ¬ (3#32).toNat < 3 - 0 ∧ (3#32).toNat < 4 - 0 :=
  ⟨rfl, rfl, rfl, by decide, by decide⟩

theorem witness_WaitPollsInOrder_pause :
    (waiting (.waitConversion 3) .waitPause .conversion 3 .idle [.slept]).phase =
      .run (.waitConversion 3) .waitPause ∧
    (waiting (.waitConversion 3) .waitPause .conversion 3 .idle [.slept]).answers = [.slept] := ⟨rfl, rfl⟩

/-- WAIT_EEPROM with timeout 0 at its start, two busy polls to come. -/
def busyWait : State := running (.waitEeprom 0) .start (.time 3 :: (pollScript [(0x10, 3), (0x10, 4)] ++ []))

theorem witness_BusyWaitTimesOut :
    waitOf (.waitEeprom 0) = some (.eeprom, 0) ∧ busyWait.phase = .run (.waitEeprom 0) (waitEntry (.waitEeprom 0)) ∧
    busyWait.answers = .time 3 :: (pollScript [(0x10, 3), (0x10, 4)] ++ []) ∧
    allBusy .eeprom [(0x10, 3), (0x10, 4)] = true ∧ risingFrom 3 [(0x10, 3), (0x10, 4)] = true ∧
    (0#32).toNat + 2 ≤ [((0x10 : Byte), 3), (0x10, 4)].length := ⟨rfl, rfl, rfl, by decide, by decide, by decide⟩

theorem witness_BusyWaitWithIdealClockIsExact :
    busyWait.answers = .time 3 :: (pollScript (idealPolls 3 [0x10, 0x10]) ++ []) ∧
    allBusy .eeprom (idealPolls 3 [0x10, 0x10]) = true ∧
    ([0x10, 0x10] : List Byte).length = (0#32).toNat + 2 := ⟨rfl, by decide, rfl⟩

/-- A wait of 3 ms at its timeout test, the clock at 4. -/
def expiring : State :=
  { waiting (.waitEeprom 3) .waitClock .eeprom 3 .idle [.time 4] with
    trace := [.now 0, .memRead 0x03 1 (.bytes [0x10])] }

theorem witness_NoEarlyTimeout :
    WellPhased expiring ∧ ∃ t, step expiring = .next t ∧
      t.phase = .run (.waitEeprom 3) (.respond (errorResponse .timeout)) ∧ expiring.phase ≠ t.phase :=
  ⟨⟨⟨rfl, by decide, ⟨_, rfl, rfl, rfl⟩, rfl, ⟨1, rfl⟩, trivial⟩, rfl, rfl⟩, _, rfl, rfl, by decide⟩

theorem witness_EepromRequestsLeaveTheMirrors :
    isEeprom (.eeSoftReset false 0) = true ∧
    (running (.eeSoftReset false 0) .start [.written true]).phase = .run (.eeSoftReset false 0) .start ∧
    ∃ t, step (running (.eeSoftReset false 0) .start [.written true]) = .next t := ⟨rfl, rfl, _, rfl⟩

end Sys2Proof.Tests
end

section
/-! SUPPORT. Proofs of the statements on steps, primitives and reset (00_scope.md R6, R7, R10). The shared operations
are first tied to the primitives of Sys2Proof/Safety.lean, once each; a step at a position then cites them. -/

namespace Sys2Proof.Machine

/-! ### What a computation after a primitive leaves in place -/

/-- The computation from `t` to `u` stays in the running request: it takes no answer, records no event, and changes
SEQ_PHASE in the position alone. It may write the block's registers (00_scope.md R6; 10_state.md R27). -/
def StaysInRequest (t u : State) : Prop :=
  u.answers = t.answers ∧ u.trace = t.trace ∧ ∃ q, u.phase = t.phase.moveTo q

theorem staysInRequest_moveTo (t : State) (q : Pos) : StaysInRequest t (t.moveTo q) := ⟨rfl, rfl, q, rfl⟩

theorem staysInRequest_finish (t : State) (r : Response) : StaysInRequest t (t.finish r) :=
  staysInRequest_moveTo t _

theorem staysInRequest_raise (t : State) (e : Status) : StaysInRequest t (t.raise e) :=
  staysInRequest_moveTo t _

theorem staysInRequest_afterReadN {n : Nat} {k : List Byte → State → State}
    (hk : ∀ bs t, StaysInRequest t (k bs t)) (a : ReadAnswer) (t : State) :
    StaysInRequest t (afterReadN n k a t) := by
  cases a with
  | fail => exact staysInRequest_raise t _
  | bytes bs =>
    by_cases h : bs.length < n
    · rw [afterReadN_short t h]; exact staysInRequest_raise t _
    · simpa only [afterReadN, if_neg h] using hk bs t

theorem staysInRequest_afterWriteN {k : State → State} (hk : ∀ t, StaysInRequest t (k t)) (ok : Bool) (t : State) :
    StaysInRequest t (afterWriteN k ok t) := by
  cases ok with
  | false => exact staysInRequest_raise t _
  | true => exact hk t

/-- The two `ready` computations of the model, `eeReady` and `waitReady`, change no more than EE_STATE and the
position, so the hypothesis is met by every wait. -/
theorem staysInRequest_afterPoll {bit : WaitBit} {ready : Byte → State → State}
    (hready : ∀ b t, StaysInRequest t (ready b t)) (w : Wait) (a : ReadAnswer) (t : State) :
    StaysInRequest t (afterPoll bit ready w a t) := by
  obtain ⟨-, h⟩ | ⟨-, h⟩ | ⟨b, bs, -, -, h⟩ | ⟨b, bs, -, -, h⟩ := afterPoll_cases bit ready w a t <;> rw [h]
  · exact staysInRequest_raise (t.setWait _) _
  · exact staysInRequest_raise (t.setWait _) _
  · exact staysInRequest_moveTo t _
  · exact hready b (t.setWait _)

theorem staysInRequest_afterClock (w : Wait) (t : Nat) (u : State) : StaysInRequest u (afterClock w t u) := by
  obtain ⟨-, h⟩ | ⟨-, h⟩ := afterClock_cases w t u <;> rw [h]
  · exact staysInRequest_raise (u.setWait _) _
  · exact staysInRequest_moveTo u _

theorem staysInRequest_afterEeCommand (code : Byte) (wait ok : Bool) (t : State) :
    StaysInRequest t (afterEeCommand code wait ok t) := by
  obtain ⟨-, h⟩ | ⟨-, -, h⟩ | ⟨-, -, h⟩ := afterEeCommand_cases code wait ok t <;> rw [h]
  · exact staysInRequest_raise (t.setEe _) _
  · exact staysInRequest_finish ((t.setEe _).setEe _) _
  · exact staysInRequest_moveTo ((t.setEe _).setEe _) _

/-! ### Performing one primitive -/

/-- The result `r` of a step from `s`, when an answer is at hand and the step does not stop, is that of performing the
primitive `p`: the answer is one of `p`, it alone is taken, its event alone is recorded, and the request goes on
(00_scope.md R6, R10). -/
def Performs (p : Primitive) (s : State) (r : Result) : Prop :=
  ∀ t a rest, s.answers = a :: rest → r = .next t →
    ∃ e, p.event? a = some e ∧ StaysInRequest (s.answered rest e) t

theorem memRead_performs {addr : Byte} {n : Nat} {k : ReadAnswer → State → State} {s : State}
    (hk : ∀ a t, StaysInRequest t (k a t)) : Performs (.memRead addr n) s (memRead addr n k s) := by
  intro t a rest ha ht
  obtain ⟨hnil, -⟩ | ⟨b, rest', hb, hfits, rfl⟩ := memRead_next ht
  · simp [hnil] at ha
  · obtain ⟨rfl, rfl⟩ : Answer.read b = a ∧ rest' = rest := by simpa [hb] using ha
    refine ⟨.memRead addr n b, ?_, hk _ _⟩
    cases b with
    | fail => rfl
    | bytes bs => simpa [Primitive.event?, ReadAnswer.fits] using hfits

theorem memWrite_performs {addr : Byte} {bytes : List Byte} {k : Bool → State → State} {s : State}
    (hk : ∀ ok t, StaysInRequest t (k ok t)) : Performs (.memWrite addr bytes) s (memWrite addr bytes k s) := by
  intro t a rest ha ht
  obtain ⟨hnil, -⟩ | ⟨ok, rest', hb, rfl⟩ := memWrite_next ht
  · simp [hnil] at ha
  · obtain ⟨rfl, rfl⟩ : Answer.written ok = a ∧ rest' = rest := by simpa [hb] using ha
    exact ⟨_, rfl, hk _ _⟩

theorem now_performs {k : Nat → State → State} {s : State} (hk : ∀ c t, StaysInRequest t (k c t)) :
    Performs .now s (now k s) := by
  intro t a rest ha ht
  obtain ⟨hnil, -⟩ | ⟨c, rest', hb, rfl⟩ := now_next ht
  · simp [hnil] at ha
  · obtain ⟨rfl, rfl⟩ : Answer.time c = a ∧ rest' = rest := by simpa [hb] using ha
    exact ⟨_, rfl, hk _ _⟩

theorem sleep_performs {d : Nat} {k : State → State} {s : State} (hk : ∀ t, StaysInRequest t (k t)) :
    Performs (.sleep d) s (sleep d k s) := by
  intro t a rest ha ht
  obtain ⟨hnil, -⟩ | ⟨rest', hb, rfl⟩ := sleep_next ht
  · simp [hnil] at ha
  · obtain ⟨rfl, rfl⟩ : Answer.slept = a ∧ rest' = rest := by simpa [hb] using ha
    exact ⟨_, rfl, hk _⟩

theorem readN_performs {addr : Byte} {n : Nat} {k : List Byte → State → State} {s : State}
    (hk : ∀ bs t, StaysInRequest t (k bs t)) : Performs (.memRead addr n) s (readN addr n k s) :=
  memRead_performs (staysInRequest_afterReadN hk)

theorem writeN_performs {addr : Byte} {bytes : List Byte} {k : State → State} {s : State}
    (hk : ∀ t, StaysInRequest t (k t)) : Performs (.memWrite addr bytes) s (writeN addr bytes k s) :=
  memWrite_performs (staysInRequest_afterWriteN hk)

/-- A read whose bytes only make a response, the last primitive of its request. -/
theorem readN_finish_performs {addr : Byte} {n : Nat} (f : List Byte → Response) {s : State} :
    Performs (.memRead addr n) s (readN addr n (fun bs t => t.finish (f bs)) s) :=
  readN_performs fun _ _ => staysInRequest_finish _ _

/-- A write that ends its request. -/
theorem writeN_finish_performs {addr : Byte} {bytes : List Byte} (r : Response) {s : State} :
    Performs (.memWrite addr bytes) s (writeN addr bytes (·.finish r) s) :=
  writeN_performs fun _ => staysInRequest_finish _ _

theorem waitEnter_performs (bit : WaitBit) (timeout : Word32) (s : State) :
    Performs .now s (waitEnter bit timeout s) :=
  now_performs fun c t => staysInRequest_moveTo (t.setWait ⟨.polling, c, timeout, bit⟩) _

theorem eeCommand_performs (code : Byte) (wait : Bool) (s : State) :
    Performs (.memWrite 0x17 [code]) s (memWrite Addr.eeCmd [code] (afterEeCommand code wait) s) :=
  memWrite_performs (staysInRequest_afterEeCommand code wait)

/-- A running request performs what its pseudocode performs at its position. -/
theorem performs_of_body {i : Instr} {body : Pos → State → Result} {s : State} {pos : Pos} {p : Primitive}
    (hs : s.phase = .run i pos) (hr : ∀ r, pos ≠ .respond r) (hb : Performs p s (body pos s)) :
    Performs p s (perform i body s) := by
  rwa [perform_body hs hr]

/-! ### The primitive of each position -/

/-- At its start, a request performs its first primitive (41_session.md R143 to R164; 42_wait_eeprom.md R195 to R201;
a codec request and LAST_ERROR have none). -/
theorem exec_start_performs {i : Instr} {s : State} {p : Primitive} (hs : s.phase = .run i .start)
    (hp : firstPrimitive s i = some p) : Performs p s (exec i s) := by
  cases i with
  | encCmd | decCmd | encCfg | decCfg | decStatus | encAlert | decAlert | decRaw | rawToC | cToRaw | crc8Upd
  | lastError => cases hp
  | configure rate avg slp =>
    cases hp
    exact performs_of_body hs nofun (writeN_performs fun t =>
      staysInRequest_finish (t.setCfg ⟨true, rate.code, avg.code, slp⟩) _)
  | setMode mode heater =>
    cases hp
    exact performs_of_body hs nofun (writeN_performs fun t => staysInRequest_finish (t.setMode ⟨true, mode.code⟩) _)
  | readTemp wait checked =>
    cases hp
    cases wait with
    | true => exact performs_of_body hs nofun (sleep_performs fun t => staysInRequest_moveTo t _)
    | false => exact performs_of_body hs nofun (readN_finish_performs _)
  | singleShot =>
    cases hp
    exact performs_of_body hs nofun (writeN_performs fun t =>
      staysInRequest_moveTo (t.setMode ⟨true, Mode.singleShot.code⟩) _)
  | isBusy =>
    cases hp
    exact performs_of_body hs nofun (memRead_performs fun _ t => staysInRequest_finish t _)
  | heaterOn | heaterOff =>
    cases hp
    exact performs_of_body hs nofun (readN_performs fun _ t => staysInRequest_moveTo t _)
  | readStatus | getAlertMode | getHighLimit | getLowLimit | readDeviceId | readRomCode | readScratch
  | readScratchExt =>
    cases hp
    exact performs_of_body hs nofun (readN_finish_performs _)
  | setAlertMode | setParasitic =>
    cases hp
    exact performs_of_body hs nofun (writeN_finish_performs _)
  | setHighLimit c | setLowLimit c =>
    obtain ⟨raw, hraw, rfl⟩ := Option.map_eq_some_iff.mp hp
    refine performs_of_body hs nofun ?_
    simp only [atStart_start, setLimit, hraw]
    exact writeN_finish_performs _
  | readUserReg index =>
    obtain ⟨hle, rfl⟩ : index.toNat ≤ 9 ∧ Primitive.memRead (0x0C + index) 1 = p := by
      simpa [firstPrimitive] using hp
    refine performs_of_body hs nofun ?_
    simp only [atStart_start, userIndexOk, hle, decide_true, if_true]
    exact readN_finish_performs _
  | writeUserReg index value =>
    obtain ⟨hle, rfl⟩ : index.toNat ≤ 9 ∧ Primitive.memWrite (0x0C + index) [value] = p := by
      simpa [firstPrimitive] using hp
    refine performs_of_body hs nofun ?_
    simp only [atStart_start, userIndexOk, hle, decide_true, if_true]
    exact writeN_finish_performs _
  | eeCopyPage | eeRecallPage | eeFullRecall | eeSoftReset =>
    cases hp
    exact performs_of_body hs nofun (eeCommand_performs _ _ s)
  | waitConversion | waitEeprom =>
    cases hp
    exact performs_of_body hs nofun (waitEnter_performs _ _ s)

theorem exec_triggered_performs {s : State} (hs : s.phase = .run .singleShot .triggered) :
    Performs (.sleep (latency s.cfg)) s (exec .singleShot s) :=
  performs_of_body hs nofun (sleep_performs fun t => staysInRequest_moveTo t _)

theorem exec_delayed_performs {i : Instr} {s : State} {p : Primitive} (hs : s.phase = .run i .delayed)
    (hfits : PosFits i .delayed = true) (hp : primitiveAt i s .delayed = some p) : Performs p s (exec i s) := by
  cases i with
  | readTemp wait checked =>
    cases checked <;> cases hp <;> exact performs_of_body hs nofun (readN_finish_performs _)
  | singleShot =>
    cases hp
    exact performs_of_body hs nofun (readN_finish_performs _)
  | _ => cases hfits

theorem exec_commandRead_performs {i : Instr} {s : State} {b : Byte} {p : Primitive}
    (hs : s.phase = .run i (.commandRead b)) (hfits : PosFits i (.commandRead b) = true)
    (hp : primitiveAt i s (.commandRead b) = some p) : Performs p s (exec i s) := by
  cases i with
  | heaterOn | heaterOff =>
    cases hp
    exact performs_of_body hs nofun (writeN_finish_performs _)
  | _ => cases hfits

theorem exec_waitEnter_performs {i : Instr} {s : State} (hs : s.phase = .run i .waitEnter)
    (hfits : PosFits i .waitEnter = true) : Performs .now s (exec i s) := by
  cases i with
  | eeCopyPage | eeRecallPage | eeFullRecall | eeSoftReset =>
    exact performs_of_body hs nofun (waitEnter_performs _ _ s)
  | _ => cases hfits

/-- The positions inside the loop of a wait (42_wait_eeprom.md R190). -/
def Pos.inWaitLoop : Pos → Bool
  | .waitPoll | .waitClock | .waitPause => true
  | _ => false

theorem eeSequence_inWaitLoop {pos : Pos} (hpos : pos.inWaitLoop = true) (code : Byte) (wait : Bool)
    (timeout : Word32) (s : State) :
    eeSequence code wait timeout pos s = waitLoop .eeprom (eeReady code) pos s := by
  cases pos with
  | waitPoll | waitClock | waitPause => rfl
  | _ => cases hpos

theorem waitAlone_inWaitLoop {pos : Pos} (hpos : pos.inWaitLoop = true) (bit : WaitBit) (timeout : Word32)
    (s : State) : waitAlone bit timeout pos s = waitLoop bit waitReady pos s := by
  cases pos with
  | waitPoll | waitClock | waitPause => rfl
  | _ => cases hpos

theorem staysInRequest_eeReady (code b : Byte) (t : State) : StaysInRequest t (eeReady code b t) :=
  staysInRequest_finish (t.setEe .done) _

theorem staysInRequest_waitReady (b : Byte) (t : State) : StaysInRequest t (waitReady b t) :=
  staysInRequest_finish t _

/-- Every waiting request takes its steps inside the loop from the wait engine (42_wait_eeprom.md R195, R200, R201). -/
theorem exec_waitLoop {i : Instr} {s : State} {pos : Pos} (hs : s.phase = .run i pos)
    (hpos : pos.inWaitLoop = true) (hw : (waitOf i).isSome = true) :
    ∃ bit ready, (∀ b t, StaysInRequest t (ready b t)) ∧ exec i s = waitLoop bit ready pos s := by
  have hr : ∀ r, pos ≠ .respond r := by rintro r rfl; cases hpos
  cases i with
  | eeCopyPage | eeRecallPage | eeFullRecall | eeSoftReset =>
    exact ⟨_, _, staysInRequest_eeReady _, (perform_body hs hr).trans (eeSequence_inWaitLoop hpos _ _ _ s)⟩
  | waitConversion | waitEeprom =>
    exact ⟨_, _, staysInRequest_waitReady, (perform_body hs hr).trans (waitAlone_inWaitLoop hpos _ _ s)⟩
  | _ => cases hw

theorem waitLoop_performs {bit : WaitBit} {ready : Byte → State → State} {i : Instr} {pos : Pos} {s : State}
    {p : Primitive} (hready : ∀ b t, StaysInRequest t (ready b t)) (hp : primitiveAt i s pos = some p) :
    Performs p s (waitLoop bit ready pos s) := by
  intro t a rest ha ht
  obtain ⟨w, -, ⟨rfl, h⟩ | ⟨rfl, h⟩ | ⟨rfl, h⟩⟩ := waitLoop_next ht <;> cases hp
  · exact memRead_performs (staysInRequest_afterPoll hready w) t a rest ha h
  · exact now_performs (staysInRequest_afterClock w) t a rest ha h
  · exact sleep_performs (fun u => staysInRequest_moveTo u _) t a rest ha h

theorem exec_waitLoop_performs {i : Instr} {s : State} {pos : Pos} {p : Primitive} (hs : s.phase = .run i pos)
    (hpos : pos.inWaitLoop = true) (hw : (waitOf i).isSome = true) (hp : primitiveAt i s pos = some p) :
    Performs p s (exec i s) := by
  obtain ⟨bit, ready, hready, heq⟩ := exec_waitLoop hs hpos hw
  rw [heq]
  exact waitLoop_performs hready hp

/-- A running request performs the primitive of its position. -/
theorem exec_performs {i : Instr} {s : State} {pos : Pos} {p : Primitive} (hs : s.phase = .run i pos)
    (hfits : PosFits i pos = true) (hp : primitiveAt i s pos = some p) : Performs p s (exec i s) := by
  cases pos with
  | start => exact exec_start_performs hs hp
  | triggered =>
    obtain rfl : i = .singleShot := by simpa [PosFits] using hfits
    cases hp
    exact exec_triggered_performs hs
  | delayed => exact exec_delayed_performs hs hfits hp
  | commandRead b => exact exec_commandRead_performs hs hfits hp
  | waitEnter =>
    cases hp
    exact exec_waitEnter_performs hs hfits
  | waitPoll | waitClock | waitPause => exact exec_waitLoop_performs hs rfl hfits hp
  | respond r => cases hp

/-- Settles O15, from the primitive each position performs. -/
theorem stepPerformsThePrimitiveOfItsPosition : Obligations.StepPerformsThePrimitiveOfItsPosition := by
  intro s t i pos p a rest hs hfits hp ha ht
  rw [step_run hs] at ht
  obtain ⟨e, he, hans, htrace, q, hq⟩ := exec_performs hs hfits hp t a rest ha ht
  exact ⟨e, he, hans, htrace, q, by rw [hq, State.answered_phase, hs, Phase.moveTo_run]⟩

/-! ### Dispatch and reset -/

/-- Settles O7, from the equations of `step`. -/
theorem stepRunsTheDecodedInstruction : Obligations.StepRunsTheDecodedInstruction :=
  ⟨fun _ _ _ _ hidle hreq hdec => step_legal hidle hreq hdec, fun _ _ _ hrun => step_run hrun,
    fun _ hidle hreq => step_waits hidle hreq⟩

/-- The parameters keep the constraint on the EEPROM codes, whatever the open ones are (00_scope.md R7). -/
theorem params_admissible : Config.params.admissible = true := by
  unfold Config.params
  split
  · assumption
  · rfl

/-- Settles O19: the fields are read off the two reset functions. -/
theorem resetValues : Obligations.ResetValues := by
  refine ⟨?_, params_admissible⟩
  rintro s (rfl | ⟨u, rfl⟩)
  · exact ⟨rfl, rfl, rfl, rfl, rfl, rfl, rfl, rfl⟩
  · exact ⟨rfl, rfl, rfl, rfl, rfl, rfl, rfl, rfl⟩

/-! ### A whole SINGLE_SHOT request -/

theorem steps_succ {s t : State} (h : step s = .next t) (n : Nat) : steps (n + 1) s = steps n t := by
  simp [steps, h]

/-- Little-endian combination puts the high byte above the low byte (20_memory.md R63). -/
theorem combine16_eq_append (lsb msb : Byte) : combine16 lsb msb = msb ++ lsb := by
  refine BitVec.eq_of_getLsbD_eq fun k hk => ?_
  rw [show (msb ++ lsb).getLsbD k = _ from BitVec.getLsbD_append]
  by_cases h : k < 8
  · simp [combine16, h, hk]
  · have hlow : lsb.getLsbD k = false := BitVec.getLsbD_of_ge _ _ (by omega)
    simp [combine16, h, hk, hlow]

/-- The response of SINGLE_SHOT to the three bytes of its read, with R84's record written out (41_session.md R147). -/
theorem singleShotResponse_bytes (lsb msb crc : Byte) :
    singleShotResponse [lsb, msb, crc] =
      if crc8 [lsb, msb] = crc then okResponse (rawToCelsius (msb ++ lsb)) [lsb, msb] .matched
      else ⟨.integrityFailure, .mismatch, false, 0, []⟩ := by
  by_cases h : crc8 [lsb, msb] = crc
  · simp [singleShotResponse, verify, byteAt, pairCelsius, decodeRawTemperature, combine16_eq_append, h,
      Response.result, okResponse]
  · simp [singleShotResponse, verify, byteAt, h]

theorem moveTo_answered_eq_after {s : State} {i : Instr} {pos q : Pos} {rest : List Answer} {e : Event}
    (hs : s.phase = .run i pos) : (s.answered rest e).moveTo q = after s i rest e q := by
  simp [State.moveTo, State.answered, after, hs]

theorem step_accepts {s : State} {w : Word64} {ws : List Word64} {i : Instr} (hs : s.phase = .idle)
    (hr : s.requests = w :: ws) (hd : decode w = some i) : step s = .next (s.accept (.run i .start)) :=
  (step_legal hs hr hd).trans (exec_idle i hs)

theorem step_singleShot_start {s : State} {rest : List Answer} (hs : s.phase = .run .singleShot .start)
    (ha : s.answers = .written true :: rest) :
    step s = .next ((after s .singleShot rest (.memWrite 0x04 [0xC0] true) .triggered).setMode ⟨true, 0b11⟩) :=
  calc step s
    _ = singleShotBody .start s := (step_run hs).trans (perform_body hs nofun)
    _ = .next (((s.answered rest (.memWrite 0x04 [0xC0] true)).moveTo .triggered).setMode ⟨true, 0b11⟩) :=
      memWrite_answered ha
    _ = _ := by rw [moveTo_answered_eq_after hs]

theorem step_singleShot_triggered {s : State} {rest : List Answer} (hs : s.phase = .run .singleShot .triggered)
    (ha : s.answers = .slept :: rest) :
    step s = .next (after s .singleShot rest (.sleep (latency s.cfg)) .delayed) :=
  calc step s
    _ = singleShotBody .triggered s := (step_run hs).trans (perform_body hs nofun)
    _ = .next ((s.answered rest (.sleep (latency s.cfg))).moveTo .delayed) :=
      sleep_answered (k := (·.moveTo .delayed)) ha
    _ = _ := by rw [moveTo_answered_eq_after hs]

theorem step_singleShot_delayed {s : State} {lsb msb crc : Byte} {rest : List Answer}
    (hs : s.phase = .run .singleShot .delayed) (ha : s.answers = .read (.bytes [lsb, msb, crc]) :: rest) :
    step s = .next (after s .singleShot rest (.memRead 0x00 3 (.bytes [lsb, msb, crc]))
      (.respond (singleShotResponse [lsb, msb, crc]))) :=
  calc step s
    _ = singleShotBody .delayed s := (step_run hs).trans (perform_body hs nofun)
    _ = .next ((s.answered rest (.memRead 0x00 3 (.bytes [lsb, msb, crc]))).finish
          (singleShotResponse [lsb, msb, crc])) := memRead_answered ha rfl
    _ = _ := congrArg _ (moveTo_answered_eq_after hs)

theorem step_respond {s : State} {i : Instr} {r : Response} (hs : s.phase = .run i (.respond r)) :
    step s = .next (s.emit r) :=
  (step_run hs).trans (exec_respond i hs)

/-- The emission of SINGLE_SHOT: a mismatch is recorded in LAST_ERROR, a success leaves it (60_exceptions.md R222). -/
theorem step_singleShot_respond {s : State} {lsb msb crc : Byte}
    (hs : s.phase = .run .singleShot (.respond (singleShotResponse [lsb, msb, crc]))) :
    step s = .next { responded s (singleShotResponse [lsb, msb, crc]) with
      lastError := if crc8 [lsb, msb] = crc then s.lastError else .integrityFailure } := by
  rw [step_respond hs, State.emit, hs, Phase.nextLastError_run .singleShot _ _ _ nofun]
  by_cases hcrc : crc8 [lsb, msb] = crc <;>
    simp [singleShotResponse_bytes, hcrc, Response.classify, okResponse, responded]

/-- Settles O42, one equation of `step` for each of the five steps. -/
theorem wholeSingleShotRequest : Obligations.WholeSingleShotRequest := by
  intro s ws lsb msb crc rest hwf hs hreq hans
  have hdec : decode 0x0000000000000013 = some .singleShot := by decide
  obtain ⟨hwait, hee⟩ : s.wait = none ∧ s.ee = .idle := by simpa [PhaseFits, hs] using hwf.phaseFits
  calc steps 5 s
    _ = steps 4 _ := steps_succ (step_accepts hs hreq hdec) 4
    _ = steps 3 _ := steps_succ (step_singleShot_start (by rfl) (by exact hans)) 3
    _ = steps 2 _ := steps_succ (step_singleShot_triggered (by rfl) (by rfl)) 2
    _ = steps 1 _ := steps_succ (step_singleShot_delayed (by rfl) (by rfl)) 1
    _ = steps 0 _ := steps_succ (step_singleShot_respond (by rfl)) 0
    _ = _ := by
      simp [steps, responded, after, State.setMode, State.accept, hreq, hwait, hee, singleShotResponse_bytes]

end Sys2Proof.Machine
end

section
/-! SUPPORT. What no step of a running request reads or writes, said once: a walk over the instructions shows that
`exec` takes related states to related states, for every relation its operations keep. The frame of a step and the
non-interference of MODE_MIRROR and BUS_ADDR are instances (10_state.md R22, R23, R25, R31). -/

namespace Sys2Proof.Machine

/-! ### Well-formed responses -/

@[simp] theorem Response.wellFormed_failed (e : Status) : (Response.failed e).wellFormed = true := by
  simp [Response.wellFormed]

theorem Response.wellFormed_result {d : List Byte} (hlen : d.length ≤ 10) (v : Word32) (k : Chk) :
    (Response.result v d k).wellFormed = true := by
  simp [Response.wellFormed, hlen]

theorem Response.wellFormed_value (v : Word32) : (Response.result v).wellFormed = true :=
  Response.wellFormed_result (d := []) (Nat.zero_le 10) v _

@[simp] theorem wellFormed_illegalResponse : illegalResponse.wellFormed = true := Response.wellFormed_failed _

@[simp] theorem wellFormed_cToRawResponse (c : Word32) : (cToRawResponse c).wellFormed = true := by
  unfold cToRawResponse
  split
  · exact Response.wellFormed_failed _
  · exact Response.wellFormed_value _

/-! ### Relations that the operations keep -/

/-- `CONFIGURE`, the one request that writes CFG_MIRROR (10_state.md R22). -/
def writesCfg : Instr → Bool
  | .configure _ _ _ => true
  | _ => false

/-- The two requests that write MODE_MIRROR (10_state.md R23). -/
def writesMode : Instr → Bool
  | .setMode _ _ => true
  | .singleShot => true
  | _ => false

/-- Two states agree on everything that a step reads. -/
structure SameReads (s s' : State) : Prop where
  params : s'.params = s.params
  cfg : s'.cfg = s.cfg
  lastError : s'.lastError = s.lastError
  phase : s'.phase = s.phase
  wait : s'.wait = s.wait
  requests : s'.requests = s.requests
  answers : s'.answers = s.answers

/-- Every operation that the running request `i` is made of takes states related by `R` to states related by `R`. -/
structure Congruence (i : Instr) (R : State → State → Prop) : Prop where
  reads : ∀ {s s'}, R s s' → SameReads s s'
  moveTo : ∀ {s s'}, R s s' → ∀ q, R (s.moveTo q) (s'.moveTo q)
  setCfg : writesCfg i = true → ∀ {s s'}, R s s' → ∀ m, R (s.setCfg m) (s'.setCfg m)
  setMode : writesMode i = true → ∀ {s s'}, R s s' → ∀ m, R (s.setMode m) (s'.setMode m)
  setWait : ∀ {s s'}, R s s' → ∀ w, R (s.setWait w) (s'.setWait w)
  setEe : ∀ {s s'}, R s s' → ∀ e, R (s.setEe e) (s'.setEe e)
  answered : ∀ {s s'}, R s s' → ∀ rest e, R (s.answered rest e) (s'.answered rest e)
  emit : ∀ {s s'}, R s s' → ∀ r, r.wellFormed = true → R (s.emit r) (s'.emit r)

/-- Where `r` is a next state, so is `r'`, and the two are related. -/
def Follows (R : State → State → Prop) (r r' : Result) : Prop :=
  ∀ t, r = .next t → ∃ t', r' = .next t' ∧ R t t'

section
variable {i : Instr} {R : State → State → Prop} {s s' : State}

theorem follows_fault (f : Fault) (r' : Result) : Follows R (.fault f) r' := by
  intro t ht
  cases ht

theorem Congruence.finish (hR : Congruence i R) (h : R s s') (r : Response) : R (s.finish r) (s'.finish r) :=
  hR.moveTo h _

theorem Congruence.raise (hR : Congruence i R) (h : R s s') (e : Status) : R (s.raise e) (s'.raise e) :=
  hR.moveTo h _

theorem Congruence.respondNow (hR : Congruence i R) (h : R s s') {r r' : Response} (hr : r' = r)
    (hwf : r.wellFormed = true) : Follows R (respondNow r s) (respondNow r' s') := by
  rintro t ⟨⟩
  exact ⟨_, rfl, hr ▸ hR.emit h r hwf⟩

theorem Congruence.memRead (hR : Congruence i R) (h : R s s') {addr : Byte} {n : Nat}
    {k k' : ReadAnswer → State → State} (hk : ∀ a u u', R u u' → R (k a u) (k' a u')) :
    Follows R (memRead addr n k s) (memRead addr n k' s') := by
  intro t ht
  obtain ⟨hnil, rfl⟩ | ⟨a, rest, ha, hfits, rfl⟩ := memRead_next ht
  · exact ⟨s', memRead_unanswered ((hR.reads h).answers.trans hnil), h⟩
  · exact ⟨_, memRead_answered ((hR.reads h).answers.trans ha) hfits, hk a _ _ (hR.answered h _ _)⟩

theorem Congruence.memWrite (hR : Congruence i R) (h : R s s') {addr : Byte} {bytes : List Byte}
    {k : Bool → State → State} (hk : ∀ ok u u', R u u' → R (k ok u) (k ok u')) :
    Follows R (memWrite addr bytes k s) (memWrite addr bytes k s') := by
  intro t ht
  obtain ⟨hnil, rfl⟩ | ⟨ok, rest, ha, rfl⟩ := memWrite_next ht
  · exact ⟨s', memWrite_unanswered ((hR.reads h).answers.trans hnil), h⟩
  · exact ⟨_, memWrite_answered ((hR.reads h).answers.trans ha), hk ok _ _ (hR.answered h _ _)⟩

theorem Congruence.now (hR : Congruence i R) (h : R s s') {k : Nat → State → State}
    (hk : ∀ c u u', R u u' → R (k c u) (k c u')) : Follows R (now k s) (now k s') := by
  intro t ht
  obtain ⟨hnil, rfl⟩ | ⟨c, rest, ha, rfl⟩ := now_next ht
  · exact ⟨s', now_unanswered ((hR.reads h).answers.trans hnil), h⟩
  · exact ⟨_, now_answered ((hR.reads h).answers.trans ha), hk c _ _ (hR.answered h _ _)⟩

theorem Congruence.sleep (hR : Congruence i R) (h : R s s') {d : Nat} {k : State → State}
    (hk : ∀ u u', R u u' → R (k u) (k u')) : Follows R (sleep d k s) (sleep d k s') := by
  intro t ht
  obtain ⟨hnil, rfl⟩ | ⟨rest, ha, rfl⟩ := sleep_next ht
  · exact ⟨s', sleep_unanswered ((hR.reads h).answers.trans hnil), h⟩
  · exact ⟨_, sleep_answered ((hR.reads h).answers.trans ha), hk _ _ (hR.answered h _ _)⟩

theorem Congruence.readN (hR : Congruence i R) (h : R s s') {addr : Byte} {n : Nat}
    {k k' : List Byte → State → State} (hk : ∀ bs u u', R u u' → R (k bs u) (k' bs u')) :
    Follows R (readN addr n k s) (readN addr n k' s') := by
  refine hR.memRead h fun a u u' hu => ?_
  cases a with
  | fail => exact hR.raise hu _
  | bytes bs =>
    by_cases hlen : bs.length < n
    · rw [afterReadN_short u hlen, afterReadN_short u' hlen]
      exact hR.raise hu _
    · simpa only [afterReadN, if_neg hlen] using hk bs u u' hu

/-- A read whose bytes only make a response. -/
theorem Congruence.readN_finish (hR : Congruence i R) (h : R s s') {addr : Byte} {n : Nat}
    {f f' : List Byte → Response} (hf : f' = f) :
    Follows R (Machine.readN addr n (fun bs t => t.finish (f bs)) s)
      (Machine.readN addr n (fun bs t => t.finish (f' bs)) s') :=
  hf ▸ hR.readN h fun _ _ _ hu => hR.finish hu _

theorem Congruence.writeN (hR : Congruence i R) (h : R s s') {addr : Byte} {bytes bytes' : List Byte}
    (hbytes : bytes' = bytes) {k : State → State} (hk : ∀ u u', R u u' → R (k u) (k u')) :
    Follows R (writeN addr bytes k s) (writeN addr bytes' k s') := by
  subst hbytes
  refine hR.memWrite h fun ok u u' hu => ?_
  cases ok with
  | false => exact hR.raise hu _
  | true => exact hk u u' hu

theorem Congruence.writeByte (hR : Congruence i R) (h : R s s') {addr b b' : Byte} (hb : b' = b) :
    Follows R (writeByte addr b s) (writeByte addr b' s') :=
  hb ▸ hR.writeN h rfl fun _ _ hu => hR.finish hu _

theorem Congruence.setLimit (hR : Congruence i R) (h : R s s') (addr : Byte) (c : Word32) :
    Follows R (setLimit addr c s) (setLimit addr c s') := by
  unfold Machine.setLimit
  split
  · exact hR.respondNow h rfl (Response.wellFormed_failed _)
  · exact hR.writeN h rfl fun _ _ hu => hR.finish hu _

theorem Congruence.waitEnter (hR : Congruence i R) (h : R s s') (bit : WaitBit) (timeout : Word32) :
    Follows R (waitEnter bit timeout s) (waitEnter bit timeout s') :=
  hR.now h fun _ _ _ hu => hR.moveTo (hR.setWait hu _) _

theorem Congruence.afterPoll (hR : Congruence i R) {bit : WaitBit} {ready : Byte → State → State}
    (hready : ∀ b u u', R u u' → R (ready b u) (ready b u')) (w : Wait) (a : ReadAnswer) (h : R s s') :
    R (afterPoll bit ready w a s) (afterPoll bit ready w a s') := by
  cases a with
  | fail => exact hR.raise (hR.setWait h _) _
  | bytes bs =>
    simp only [Machine.afterPoll]
    split_ifs
    · exact hR.raise (hR.setWait h _) _
    · exact hR.moveTo h _
    · exact hready _ _ _ (hR.setWait h _)

theorem Congruence.afterClock (hR : Congruence i R) (w : Wait) (c : Nat) (h : R s s') :
    R (afterClock w c s) (afterClock w c s') := by
  unfold Machine.afterClock
  split_ifs
  · exact hR.raise (hR.setWait h _) _
  · exact hR.moveTo h _

theorem Congruence.waitLoop (hR : Congruence i R) (h : R s s') {bit : WaitBit} {ready : Byte → State → State}
    (hready : ∀ b u u', R u u' → R (ready b u) (ready b u')) (pos : Pos) :
    Follows R (waitLoop bit ready pos s) (waitLoop bit ready pos s') := by
  intro t ht
  obtain ⟨w, hw, hcases⟩ := waitLoop_next ht
  have hw' : s'.wait = some w := (hR.reads h).wait.trans hw
  obtain ⟨rfl, hread⟩ | ⟨rfl, hnow⟩ | ⟨rfl, hsleep⟩ := hcases <;> simp only [Machine.waitLoop, hw']
  · exact hR.memRead h (fun a _ _ hu => hR.afterPoll hready w a hu) t hread
  · exact hR.now h (fun c _ _ hu => hR.afterClock w c hu) t hnow
  · exact hR.sleep h (fun _ _ hu => hR.moveTo hu _) t hsleep

theorem Congruence.afterEeCommand (hR : Congruence i R) (code : Byte) (wait ok : Bool) (h : R s s') :
    R (afterEeCommand code wait ok s) (afterEeCommand code wait ok s') := by
  unfold Machine.afterEeCommand
  split_ifs
  · exact hR.moveTo (hR.setEe (hR.setEe h _) _) _
  · exact hR.finish (hR.setEe (hR.setEe h _) _) _
  · exact hR.raise (hR.setEe h _) _

theorem Congruence.eeSequence (hR : Congruence i R) (h : R s s') {code code' : Byte} (hcode : code' = code)
    (wait : Bool) (timeout : Word32) (pos : Pos) :
    Follows R (eeSequence code wait timeout pos s) (eeSequence code' wait timeout pos s') := by
  subst hcode
  cases pos with
  | start => exact hR.memWrite h fun ok _ _ hu => hR.afterEeCommand code' wait ok hu
  | waitEnter => exact hR.waitEnter h _ _
  | _ => exact hR.waitLoop h (ready := eeReady code') (fun _ _ _ hu => hR.finish (hR.setEe hu _) _) _

theorem Congruence.waitAlone (hR : Congruence i R) (h : R s s') (bit : WaitBit) (timeout : Word32) (pos : Pos) :
    Follows R (waitAlone bit timeout pos s) (waitAlone bit timeout pos s') := by
  cases pos with
  | start => exact hR.waitEnter h _ _
  | _ => exact hR.waitLoop h (ready := waitReady) (fun _ _ _ hu => hR.finish hu _) _

theorem Congruence.readTempBody (hR : Congruence i R) (h : R s s') (wait checked : Bool) (pos : Pos) :
    Follows R (readTempBody wait checked pos s) (readTempBody wait checked pos s') := by
  cases pos with
  | start =>
    cases wait with
    | true =>
      simp only [Machine.readTempBody, if_true, (hR.reads h).cfg]
      exact hR.sleep h fun _ _ hu => hR.moveTo hu _
    | false => exact hR.readN_finish h rfl
  | delayed => exact hR.readN_finish h rfl
  | _ => exact follows_fault _ _

theorem Congruence.singleShotBody (hR : Congruence .singleShot R) (h : R s s') (pos : Pos) :
    Follows R (singleShotBody pos s) (singleShotBody pos s') := by
  cases pos with
  | start => exact hR.writeN h rfl fun _ _ hu => hR.moveTo (hR.setMode rfl hu _) _
  | triggered =>
    simp only [Machine.singleShotBody, (hR.reads h).cfg]
    exact hR.sleep h fun _ _ hu => hR.moveTo hu _
  | delayed => exact hR.readN_finish h rfl
  | _ => exact follows_fault _ _

theorem Congruence.heaterBody (hR : Congruence i R) (h : R s s') (f : Byte → Byte) (pos : Pos) :
    Follows R (heaterBody f pos s) (heaterBody f pos s') := by
  cases pos with
  | start => exact hR.readN h fun _ _ _ hu => hR.moveTo hu _
  | commandRead b => exact hR.writeN h rfl fun _ _ hu => hR.finish hu _
  | _ => exact follows_fault _ _

theorem follows_atStart {first first' : State → Result} (hfirst : Follows R (first s) (first' s')) (pos : Pos) :
    Follows R (atStart first pos s) (atStart first' pos s') := by
  cases pos with
  | start => exact hfirst
  | _ => exact follows_fault _ _

/-- A step of a running request whose response is not due follows its pseudocode. -/
theorem Congruence.perform (hR : Congruence i R) (h : R s s') {body body' : Pos → State → Result} {pos : Pos}
    (hs : s.phase = .run i pos) (hpos : ∀ r, pos ≠ .respond r)
    (hbody : Follows R (body pos s) (body' pos s')) : Follows R (perform i body s) (perform i body' s') := by
  rwa [perform_body hs hpos, perform_body ((hR.reads h).phase.trans hs) hpos]

/-- The walk over the instructions: a running request whose response is not due takes related states to related
states. -/
theorem Congruence.exec (hR : Congruence i R) (h : R s s') {pos : Pos} (hs : s.phase = .run i pos)
    (hpos : ∀ r, pos ≠ .respond r) : Follows R (exec i s) (exec i s') := by
  have hp : s'.params = s.params := (hR.reads h).params
  have he : s'.lastError = s.lastError := (hR.reads h).lastError
  cases i with
  | encCmd | decCmd | encCfg | decCfg | decStatus | decRaw | rawToC | crc8Upd =>
    exact hR.perform h hs hpos (follows_atStart (hR.respondNow h rfl (Response.wellFormed_value _)) pos)
  | cToRaw c =>
    exact hR.perform h hs hpos (follows_atStart (hR.respondNow h rfl (wellFormed_cToRawResponse c)) pos)
  | encAlert | decAlert =>
    exact hR.perform h hs hpos
      (follows_atStart (hR.respondNow h (by rw [hp]) (Response.wellFormed_value _)) pos)
  | lastError =>
    exact hR.perform h hs hpos
      (follows_atStart (hR.respondNow h (by rw [he]) (Response.wellFormed_value _)) pos)
  | configure =>
    exact hR.perform h hs hpos
      (follows_atStart (hR.writeN h rfl fun _ _ hu => hR.finish (hR.setCfg rfl hu _) _) pos)
  | setMode =>
    exact hR.perform h hs hpos
      (follows_atStart (hR.writeN h rfl fun _ _ hu => hR.finish (hR.setMode rfl hu _) _) pos)
  | readTemp => exact hR.perform h hs hpos (hR.readTempBody h _ _ pos)
  | singleShot => exact hR.perform h hs hpos (hR.singleShotBody h pos)
  | readStatus | getHighLimit | getLowLimit | readDeviceId | readRomCode | readScratch | readScratchExt =>
    exact hR.perform h hs hpos (follows_atStart (hR.readN_finish h rfl) pos)
  | getAlertMode =>
    exact hR.perform h hs hpos (follows_atStart (hR.readN_finish h (by rw [hp])) pos)
  | isBusy =>
    exact hR.perform h hs hpos (follows_atStart (hR.memRead h fun a _ _ hu => hR.finish hu (isBusyResponse a)) pos)
  | heaterOn | heaterOff => exact hR.perform h hs hpos (hR.heaterBody h _ pos)
  | setAlertMode => exact hR.perform h hs hpos (follows_atStart (hR.writeByte h (by rw [hp])) pos)
  | setParasitic => exact hR.perform h hs hpos (follows_atStart (hR.writeByte h rfl) pos)
  | setHighLimit c | setLowLimit c => exact hR.perform h hs hpos (follows_atStart (hR.setLimit h _ c) pos)
  | readUserReg index =>
    refine hR.perform h hs hpos (follows_atStart ?_ pos)
    split
    · exact hR.readN_finish h rfl
    · exact hR.respondNow h rfl (Response.wellFormed_failed _)
  | writeUserReg index value =>
    refine hR.perform h hs hpos (follows_atStart ?_ pos)
    split
    · exact hR.writeByte h rfl
    · exact hR.respondNow h rfl (Response.wellFormed_failed _)
  | eeCopyPage | eeRecallPage | eeFullRecall | eeSoftReset =>
    exact hR.perform h hs hpos (hR.eeSequence h (by rw [hp]) _ _ pos)
  | waitConversion | waitEeprom => exact hR.perform h hs hpos (hR.waitAlone h _ _ pos)

end

end Sys2Proof.Machine
end

section
/-! SUPPORT. Proofs of the statements on the request port and on the block registers (10_state.md R22, R23, R25, R27 to
R29, R31). -/

namespace Sys2Proof.Machine

/-! ### The frame of a running request -/

/-- What a step of the running request `i` from `s` to `u` leaves: the parameters, BUS_ADDR and the request port; each
mirror unless `i` writes it; and the response port holds a well-formed record if it held one. -/
structure RunFrame (i : Instr) (s u : State) : Prop where
  params : u.params = s.params
  busAddr : u.busAddr = s.busAddr
  requests : u.requests = s.requests
  cfg : writesCfg i = false → u.cfg = s.cfg
  mode : writesMode i = false → u.mode = s.mode
  rsp : s.rsp.wellFormed = true → u.rsp.wellFormed = true

theorem RunFrame.refl (i : Instr) (s : State) : RunFrame i s s :=
  ⟨rfl, rfl, rfl, fun _ => rfl, fun _ => rfl, id⟩

theorem RunFrame.emit {i : Instr} {s u : State} (h : RunFrame i s u) {r : Response} (hr : r.wellFormed = true) :
    RunFrame i s (u.emit r) :=
  ⟨h.params, h.busAddr, h.requests, h.cfg, h.mode, fun _ => hr⟩

/-- The frame as a relation that every operation keeps: one state, in the frame of `s`. -/
theorem runFrame_congruence (i : Instr) (s : State) : Congruence i fun u u' => u' = u ∧ RunFrame i s u where
  reads := by
    rintro u _ ⟨rfl, -⟩
    exact ⟨rfl, rfl, rfl, rfl, rfl, rfl, rfl⟩
  moveTo := by
    rintro u _ ⟨rfl, h⟩ q
    exact ⟨rfl, h.params, h.busAddr, h.requests, h.cfg, h.mode, h.rsp⟩
  setCfg := by
    rintro hi u _ ⟨rfl, h⟩ m
    exact ⟨rfl, h.params, h.busAddr, h.requests, fun hno => by simp [hi] at hno, h.mode, h.rsp⟩
  setMode := by
    rintro hi u _ ⟨rfl, h⟩ m
    exact ⟨rfl, h.params, h.busAddr, h.requests, h.cfg, fun hno => by simp [hi] at hno, h.rsp⟩
  setWait := by
    rintro u _ ⟨rfl, h⟩ w
    exact ⟨rfl, h.params, h.busAddr, h.requests, h.cfg, h.mode, h.rsp⟩
  setEe := by
    rintro u _ ⟨rfl, h⟩ e
    exact ⟨rfl, h.params, h.busAddr, h.requests, h.cfg, h.mode, h.rsp⟩
  answered := by
    rintro u _ ⟨rfl, h⟩ rest e
    exact ⟨rfl, h.params, h.busAddr, h.requests, h.cfg, h.mode, h.rsp⟩
  emit := by
    rintro u _ ⟨rfl, h⟩ r hr
    exact ⟨rfl, h.emit hr⟩

theorem exec_runFrame {i : Instr} {s t : State} {pos : Pos} (hs : s.phase = .run i pos)
    (hpos : ∀ r, pos ≠ .respond r) (ht : exec i s = .next t) : RunFrame i s t := by
  obtain ⟨_, -, rfl, h⟩ := (runFrame_congruence i s).exec ⟨rfl, RunFrame.refl i s⟩ hs hpos t ht
  exact h

/-- The step of a running request whose response is not due is its pseudocode's. -/
theorem body_next {i : Instr} {body : Pos → State → Result} {s t : State} {pos : Pos} (hs : s.phase = .run i pos)
    (hpos : ∀ r, pos ≠ .respond r) (ht : perform i body s = .next t) : body pos s = .next t :=
  (perform_body hs hpos).symm.trans ht

/-! ### The request port -/

/-- Settles O17, from what one step can do. -/
theorem requestsAreTakenOnlyInIdle : Obligations.RequestsAreTakenOnlyInIdle := by
  refine ⟨fun s t ht hrun => ?_, fun s t ht hidle => ?_⟩
  · obtain ⟨hs, -⟩ | ⟨_, _, _, hs, -⟩ | ⟨_, _, hs, -⟩ | ⟨_, -, rfl⟩ | ⟨_, _, -, rfl⟩ | ⟨_, _, hs, hpos, hexec⟩ :=
      step_next ht
    · exact absurd hs hrun
    · exact absurd hs hrun
    · exact absurd hs hrun
    · exact State.emit_requests s _
    · exact State.emit_requests s _
    · exact (exec_runFrame hs hpos hexec).requests
  · obtain ⟨-, hreq, rfl⟩ | ⟨_, _, _, -, -, -, rfl⟩ | ⟨_, _, -, -, -, rfl⟩ | ⟨_, hs, -⟩ | ⟨_, _, hs, -⟩ |
      ⟨_, _, hs, -⟩ := step_next ht
    · rw [hreq, List.tail_nil]
    · exact State.accept_requests s _
    · exact State.acceptIllegal_requests s _
    all_goals rw [hidle] at hs; cases hs

/-! ### CFG_MIRROR and MODE_MIRROR -/

/-- A step that changes a mirror, or any register that acceptance and emission leave, is one of a running request whose
response is not due. -/
theorem step_changes {α : Type} (f : State → α) (haccept : ∀ s p, f (State.accept s p) = f s)
    (hemit : ∀ s r, f (State.emit s r) = f s) {s t : State} (ht : step s = .next t) (hne : f t ≠ f s) :
    ∃ i pos, s.phase = .run i pos ∧ (∀ r, pos ≠ .respond r) ∧ exec i s = .next t := by
  obtain ⟨-, -, rfl⟩ | ⟨_, _, _, -, -, -, rfl⟩ | ⟨_, _, -, -, -, rfl⟩ | ⟨_, -, rfl⟩ | ⟨_, _, -, rfl⟩ | hrun :=
    step_next ht
  · exact absurd rfl hne
  · exact absurd (haccept s _) hne
  · exact absurd (haccept s _) hne
  · exact absurd (hemit s _) hne
  · exact absurd (hemit s _) hne
  · exact hrun

/-- The write of a request that stands at its start with an OK answer at hand. -/
theorem step_write_ok {i : Instr} {addr : Byte} {bytes : List Byte} {k : State → State} {s t : State}
    {rest : List Answer} (hexec : exec i s = writeN addr bytes k s) (hs : s.phase = .run i .start)
    (ha : s.answers = .written true :: rest) (ht : step s = .next t) :
    t = k (s.answered rest (.memWrite addr bytes true)) := by
  rw [step_run hs, hexec, writeN, memWrite_answered ha, afterWriteN_ok] at ht
  exact (Host.Outcome.next.inj ht).symm

/-- A write changes a register that neither a raise nor the taking of an answer touches only where it is answered
OK. -/
theorem writeN_changes {α : Type} (f : State → α) (hf : ∀ s rest e st, f ((State.answered s rest e).raise st) = f s)
    {addr : Byte} {bytes : List Byte} {k : State → State} {s t : State} (ht : writeN addr bytes k s = .next t)
    (hne : f t ≠ f s) : ∃ rest, s.answers = .written true :: rest := by
  obtain ⟨-, rfl⟩ | ⟨_, -, rfl⟩ | ⟨rest, ha, -⟩ := writeN_next ht
  · exact absurd rfl hne
  · exact absurd (hf s _ _ _) hne
  · exact ⟨rest, ha⟩

theorem exec_configure_start {rate : Rate} {avg : Avg} {slp : Bool} {s : State}
    (hs : s.phase = .run (.configure rate avg slp) .start) :
    exec (.configure rate avg slp) s =
      writeN Addr.config [encodeConfig rate.code avg.code slp] (configureDone rate.code avg.code slp) s :=
  perform_body hs nofun

theorem exec_setMode_start {mode : Mode} {heater : Bool} {s : State}
    (hs : s.phase = .run (.setMode mode heater) .start) :
    exec (.setMode mode heater) s =
      writeN Addr.command [encodeCommand mode.code heater] (setModeDone mode.code heater) s :=
  perform_body hs nofun

/-- Settles O20: only CONFIGURE is made of an operation that writes the mirror. -/
theorem cfgMirrorIsWrittenOnlyByConfigure : Obligations.CfgMirrorIsWrittenOnlyByConfigure := by
  refine ⟨fun s t rate avg slp rest hs ha ht => ?_, fun s t ht hne => ?_⟩
  · rw [step_write_ok (exec_configure_start hs) hs ha ht]
    rfl
  · obtain ⟨i, pos, hs, hpos, hexec⟩ := step_changes State.cfg (fun _ _ => rfl) (fun _ _ => rfl) ht hne
    have hi : writesCfg i = true := by
      by_contra hno
      exact hne ((exec_runFrame hs hpos hexec).cfg (Bool.eq_false_of_not_eq_true hno))
    cases i with
    | configure rate avg slp =>
      obtain ⟨rfl, hwrite⟩ := atStart_next (body_next hs hpos hexec)
      obtain ⟨rest, ha⟩ := writeN_changes State.cfg (fun _ _ _ _ => rfl) hwrite hne
      exact ⟨rate, avg, slp, rest, hs, ha⟩
    | _ => cases hi

/-- SINGLE_SHOT writes MODE_MIRROR only in its trigger: the guard delay and the read leave it. -/
theorem singleShotBody_changes_mode {pos : Pos} {s t : State} (ht : singleShotBody pos s = .next t)
    (hne : t.mode ≠ s.mode) : pos = .start ∧ ∃ rest, s.answers = .written true :: rest := by
  cases pos with
  | start => exact ⟨rfl, writeN_changes State.mode (fun _ _ _ _ => rfl) ht hne⟩
  | triggered =>
    obtain ⟨-, rfl⟩ | ⟨_, -, rfl⟩ := sleep_next (d := latency s.cfg) (k := (·.moveTo .delayed)) ht <;>
      exact absurd rfl hne
  | delayed =>
    obtain ⟨-, rfl⟩ | ⟨_, -, rfl⟩ | ⟨_, _, -, -, rfl⟩ | ⟨_, _, -, -, rfl⟩ := readN_next ht <;> exact absurd rfl hne
  | _ => cases ht

/-! ### Registers that nothing reads -/

/-- A relation that every operation of every request keeps, acceptance and the emission of any response included. -/
structure StepCongruence (R : State → State → Prop) : Prop where
  run : ∀ i, Congruence i R
  accept : ∀ {s s'}, R s s' → ∀ p, R (s.accept p) (s'.accept p)
  emit : ∀ {s s'}, R s s' → ∀ r, R (s.emit r) (s'.emit r)

/-- One step takes states related by such a relation to related states. -/
theorem StepCongruence.step {R : State → State → Prop} (hR : StepCongruence R) {s s' t : State} (h : R s s')
    (ht : step s = .next t) : ∃ t', step s' = .next t' ∧ R t t' := by
  obtain ⟨-, -, -, hphase, -, hrequests, -⟩ := (hR.run .lastError).reads h
  obtain ⟨hs, hreq, rfl⟩ | ⟨w, ws, i, hs, hreq, hdec, rfl⟩ | ⟨w, ws, hs, hreq, hdec, rfl⟩ | ⟨op, hs, rfl⟩ |
    ⟨i, r, hs, rfl⟩ | ⟨i, pos, hs, hpos, hexec⟩ := step_next ht <;> rw [hs] at hphase
  · exact ⟨_, step_waits hphase (hrequests.trans hreq), h⟩
  · exact ⟨_, step_accepts hphase (hrequests.trans hreq) hdec, hR.accept h _⟩
  · exact ⟨_, step_illegal hphase (hrequests.trans hreq) hdec, hR.accept h _⟩
  · exact ⟨_, step_runIllegal hphase, hR.emit h _⟩
  · exact ⟨_, step_respond hphase, hR.emit h r⟩
  · obtain ⟨t', ht', h'⟩ := (hR.run i).exec h hs hpos t hexec
    exact ⟨t', (step_run hphase).trans ht', h'⟩

/-- Every operation takes states that differ only in MODE_MIRROR to such states. -/
theorem mode_stepCongruence : StepCongruence fun s s' => ∃ m, s' = { s with mode := m } where
  run i := {
    reads := by rintro s _ ⟨m, rfl⟩; exact ⟨rfl, rfl, rfl, rfl, rfl, rfl, rfl⟩
    moveTo := by rintro s _ ⟨m, rfl⟩ q; exact ⟨m, rfl⟩
    setCfg := by rintro - s _ ⟨m, rfl⟩ c; exact ⟨m, rfl⟩
    setMode := by rintro - s _ ⟨_, rfl⟩ m; exact ⟨m, rfl⟩
    setWait := by rintro s _ ⟨m, rfl⟩ w; exact ⟨m, rfl⟩
    setEe := by rintro s _ ⟨m, rfl⟩ e; exact ⟨m, rfl⟩
    answered := by rintro s _ ⟨m, rfl⟩ rest e; exact ⟨m, rfl⟩
    emit := by rintro s _ ⟨m, rfl⟩ r -; exact ⟨m, rfl⟩ }
  accept := by rintro s _ ⟨m, rfl⟩ p; exact ⟨m, rfl⟩
  emit := by rintro s _ ⟨m, rfl⟩ r; exact ⟨m, rfl⟩

/-- Every operation takes states that differ only in BUS_ADDR, the second holding `b`, to such states. -/
theorem busAddr_stepCongruence (b : BusAddr) : StepCongruence fun s s' => s' = { s with busAddr := b } where
  run i := {
    reads := by rintro s _ rfl; exact ⟨rfl, rfl, rfl, rfl, rfl, rfl, rfl⟩
    moveTo := by rintro s _ rfl q; rfl
    setCfg := by rintro - s _ rfl m; rfl
    setMode := by rintro - s _ rfl m; rfl
    setWait := by rintro s _ rfl w; rfl
    setEe := by rintro s _ rfl e; rfl
    answered := by rintro s _ rfl rest e; rfl
    emit := by rintro s _ rfl r -; rfl }
  accept := by rintro s _ rfl p; rfl
  emit := by rintro s _ rfl r; rfl

/-- Settles O21: the two writers by their operations, the independence by the relation of the states that differ only
in the mirror. -/
theorem modeMirrorIsWrittenOnlyByTriggers : Obligations.ModeMirrorIsWrittenOnlyByTriggers := by
  refine ⟨fun s t mode heat rest hs ha ht => ?_, fun s t rest hs ha ht => ?_, fun s t ht hne => ?_,
    fun s t m ht => ?_⟩
  · rw [step_write_ok (exec_setMode_start hs) hs ha ht]
    rfl
  · rw [step_singleShot_start hs ha] at ht
    cases ht
    rfl
  · obtain ⟨i, pos, hs, hpos, hexec⟩ := step_changes State.mode (fun _ _ => rfl) (fun _ _ => rfl) ht hne
    have hi : writesMode i = true := by
      by_contra hno
      exact hne ((exec_runFrame hs hpos hexec).mode (Bool.eq_false_of_not_eq_true hno))
    cases i with
    | setMode mode heat =>
      obtain ⟨rfl, hwrite⟩ := atStart_next (body_next hs hpos hexec)
      exact ⟨.inl ⟨mode, heat, hs⟩, writeN_changes State.mode (fun _ _ _ _ => rfl) hwrite hne⟩
    | singleShot =>
      obtain ⟨rfl, hanswer⟩ := singleShotBody_changes_mode (body_next hs hpos hexec) hne
      exact ⟨.inr hs, hanswer⟩
    | _ => cases hi
  · obtain ⟨_, ht', m', rfl⟩ := mode_stepCongruence.step ⟨m, rfl⟩ ht
    exact ⟨m', ht'⟩

/-- No step writes BUS_ADDR or the parameters (10_state.md R25; 00_scope.md R7). -/
theorem step_busAddr_params {s t : State} (ht : step s = .next t) : t.busAddr = s.busAddr ∧ t.params = s.params := by
  by_contra hne
  obtain ⟨_, _, hs, hpos, hexec⟩ := step_changes (fun u => (u.busAddr, u.params)) (fun _ _ => rfl) (fun _ _ => rfl) ht
    fun h => hne (Prod.mk.inj h)
  have hframe := exec_runFrame hs hpos hexec
  exact hne ⟨hframe.busAddr, hframe.params⟩

/-- Settles O22, from the frame of a step and the relation of the states that differ only in BUS_ADDR. -/
theorem busAddrIsConstantAndHasNoEffect : Obligations.BusAddrIsConstantAndHasNoEffect := by
  refine ⟨rfl, fun s t ht => step_busAddr_params ht, fun s t b ht => ?_⟩
  obtain ⟨_, ht', rfl⟩ := (busAddr_stepCongruence b).step rfl ht
  exact ht'

/-! ### Acceptance, emission and reset -/

/-- Settles O8, from the equation of `exec` in IDLE. -/
theorem acceptanceStartsTheRequest : Obligations.AcceptanceStartsTheRequest :=
  fun i _ hs => exec_idle i hs

/-- LAST_ERROR after the response of a request, R222's classification written out. -/
theorem Phase.nextLastError_run_eq (i : Instr) (p : Pos) (r : Response) (e : Status) :
    (Phase.run i p).nextLastError r e =
      if i = .lastError then e
      else if r.status ≠ .ok then r.status
      else if r.chk = .mismatch then .integrityFailure
      else e := by
  by_cases hi : i = .lastError
  · subst hi
    rfl
  · rw [Phase.nextLastError_run i p r e hi, if_neg hi]
    rfl

/-- Settles O10, from the equation of `exec` with a response due. -/
theorem dueResponseIsEmitted : Obligations.DueResponseIsEmitted := by
  intro i r s hs
  rw [exec_respond i hs, State.emit, hs, Phase.nextLastError_run_eq]
  rfl

/-- Settles O12: the fields are read off the reset value. -/
theorem sequencerInvariantHoldsAtReset : Obligations.SequencerInvariantHoldsAtReset :=
  { phaseFits := ⟨rfl, rfl⟩, busAddr := rfl, rspWellFormed := rfl }

end Sys2Proof.Machine
end

section
/-! SUPPORT. Every step keeps the invariant of the sequencer (10_state.md R25, R27 to R29; 20_memory.md R65;
42_wait_eeprom.md R191; 30_encoding.md R84, R85). Requests whose transfers are a fixed row come first, then the wait
engine and the EEPROM sequence; each position of the pseudocode then cites the operation it performs. -/

namespace Sys2Proof.Machine

theorem phaseFits_run {s : State} {i : Instr} {pos : Pos} (hs : s.phase = .run i pos) :
    PhaseFits s ↔ RunFits i pos s := by
  simp [PhaseFits, hs]

theorem phaseFits_emit (s : State) (r : Response) : PhaseFits (s.emit r) := ⟨rfl, rfl⟩

theorem phaseFits_of_respondNow {r : Response} {s t : State} (ht : respondNow r s = .next t) : PhaseFits t := by
  cases ht
  exact phaseFits_emit s r

@[simp] theorem transfers_append_singleton (tr : List Event) (e : Event) :
    transfers (tr ++ [e]) = transfers tr ++ e.transfer?.toList := by
  cases h : e.transfer? <;> simp [transfers, h]

/-! ### The responses of the session requests are well formed -/

theorem wellFormed_readTempResponse (checked : Bool) (bs : List Byte) :
    (readTempResponse checked bs).wellFormed = true :=
  Response.wellFormed_result (by simp) _ _

theorem wellFormed_singleShotResponse (bs : List Byte) : (singleShotResponse bs).wellFormed = true := by
  unfold singleShotResponse
  split
  · rfl
  · exact Response.wellFormed_result (by simp) _ _

theorem wellFormed_isBusyResponse (a : ReadAnswer) : (isBusyResponse a).wellFormed = true := by
  have hbusy : ∀ e, (busyOnFailure e).wellFormed = true := by simp [Response.wellFormed, busyOnFailure]
  cases a with
  | fail => exact hbusy _
  | bytes bs =>
    simp only [isBusyResponse]
    split
    · exact hbusy _
    · exact Response.wellFormed_result (by simp) _ _

theorem wellFormed_scratchResponse {n : Nat} (hn : n ≤ 10) (bs : List Byte) :
    (scratchResponse n bs).wellFormed = true :=
  Response.wellFormed_result ((List.length_take_le n bs).trans hn) _ _

/-! ### Requests that neither wait nor send an EEPROM command -/

/-- The requests whose transfers are their row of 20_memory.md R65, with no WAIT and no EE_STATE of their own. -/
def isPlain (i : Instr) : Bool := !isCodec i && i != .lastError && !isEeprom i && (waitOf i).isNone

/-- `s` runs the plain request `i`, which has performed the transfers `done`. -/
structure PlainRun (i : Instr) (done : List Transfer) (s : State) : Prop where
  plain : isPlain i = true
  phase : ∃ pos, s.phase = .run i pos
  wait : s.wait = none
  ee : s.ee = .idle
  transfers : transfers s.trace = done

theorem RunFits.plainRun_start {i : Instr} {s : State} (h : RunFits i .start s) (hs : s.phase = .run i .start)
    (hi : isPlain i = true) : PlainRun i [] s :=
  ⟨hi, ⟨_, hs⟩, h.waitFits, h.eeFits, h.transfersFit⟩

/-- `u` is `t` with the response `r` due: SEQ_PHASE apart, nothing that the invariant speaks of differs. -/
structure Responds (r : Response) (t u : State) : Prop where
  phase : u.phase = t.phase.moveTo (.respond r)
  wait : u.wait = t.wait
  ee : u.ee = t.ee
  trace : u.trace = t.trace

theorem responds_finish (r : Response) (t : State) : Responds r t (t.finish r) := ⟨rfl, rfl, rfl, rfl⟩

/-- The computation from `t` to `u` ends the request with a well-formed response. -/
def EndsRequest (t u : State) : Prop := ∃ r, r.wellFormed = true ∧ Responds r t u

theorem endsRequest_finish {r : Response} (hr : r.wellFormed = true) (t : State) : EndsRequest t (t.finish r) :=
  ⟨r, hr, responds_finish r t⟩

theorem endsRequest_raise (e : Status) (t : State) : EndsRequest t (t.raise e) :=
  endsRequest_finish (Response.wellFormed_failed e) t

section
variable {i : Instr} {done : List Transfer} {s t u : State}

/-- A plain request may respond after a transfer of its row; with status OK only after the last. -/
theorem PlainRun.phaseFits_responds (h : PlainRun i done s) {e : Event} {x : Transfer} {rest : List Answer}
    {r : Response} (he : e.transfer? = some x) (hrow : done ++ [x] <+: transferRow i)
    (hok : r.status = .ok → done ++ [x] = transferRow i) (hwf : r.wellFormed = true)
    (hu : Responds r (s.answered rest e) u) : PhaseFits u := by
  obtain ⟨hplain, ⟨pos, hs⟩, hwait, hee, hdone⟩ := h
  simp only [isPlain, Bool.and_eq_true, Bool.not_eq_true', bne_iff_ne, Option.isNone_iff_eq_none] at hplain
  obtain ⟨⟨⟨hcodec, hne⟩, heeprom⟩, hwaitOf⟩ := hplain
  have hphase : u.phase = .run i (.respond r) := by rw [hu.phase, State.answered_phase, hs, Phase.moveTo_run]
  have htransfers : Machine.transfers u.trace = done ++ [x] := by
    rw [hu.trace, State.answered_trace, transfers_append_singleton, hdone, he, Option.toList_some]
  refine (phaseFits_run hphase).mpr ⟨?_, nofun, ?_, ?_, ⟨⟨0, ?_⟩, ?_⟩, hwf⟩
  · simp [PosFits, hcodec, hne]
  · simp [WaitFits, hu.wait, hwait, hwaitOf]
  · simp [EeFits, hu.ee, hee, heeprom]
  · rw [htransfers]
    exact hrow.trans (List.prefix_append _ _)
  · intro hr
    rw [htransfers, hok hr]

/-- The last transfer of the row, whatever its outcome, may end the request. -/
theorem PlainRun.phaseFits_ends (h : PlainRun i done s) {e : Event} {x : Transfer} {rest : List Answer}
    (he : e.transfer? = some x) (hrow : done ++ [x] = transferRow i) (hu : EndsRequest (s.answered rest e) u) :
    PhaseFits u := by
  obtain ⟨r, hwf, hr⟩ := hu
  exact h.phaseFits_responds he (hrow ▸ List.prefix_refl _) (fun _ => hrow) hwf hr

/-- A transfer of the row that raises a failure ends the request. -/
theorem PlainRun.phaseFits_raise (h : PlainRun i done s) {e : Event} {x : Transfer} (rest : List Answer)
    {st : Status} (he : e.transfer? = some x) (hrow : done ++ [x] <+: transferRow i) (hst : st ≠ .ok) :
    PhaseFits ((s.answered rest e).raise st) :=
  h.phaseFits_responds he hrow (fun hok => absurd hok hst) (Response.wellFormed_failed st) (responds_finish _ _)

theorem PlainRun.last_memRead (h : PlainRun i done s) (hs : PhaseFits s) {addr : Byte} {n : Nat}
    {k : ReadAnswer → State → State} (ht : memRead addr n k s = .next t)
    (hrow : done ++ [.read addr n] = transferRow i) (hk : ∀ a u, EndsRequest u (k a u)) : PhaseFits t := by
  obtain ⟨-, rfl⟩ | ⟨a, rest, -, -, rfl⟩ := memRead_next ht
  · exact hs
  · exact h.phaseFits_ends rfl hrow (hk a _)

/-- The last read of the row, its bytes making the response. -/
theorem PlainRun.last_readN (h : PlainRun i done s) (hs : PhaseFits s) {addr : Byte} {n : Nat}
    {f : List Byte → Response} (ht : readN addr n (fun bs u => u.finish (f bs)) s = .next t)
    (hrow : done ++ [.read addr n] = transferRow i) (hf : ∀ bs, bs.length = n → (f bs).wellFormed = true) :
    PhaseFits t := by
  obtain ⟨-, rfl⟩ | ⟨rest, -, rfl⟩ | ⟨bs, rest, -, -, rfl⟩ | ⟨bs, rest, -, hlen, rfl⟩ := readN_next ht
  · exact hs
  · exact h.phaseFits_ends rfl hrow (endsRequest_raise _ _)
  · exact h.phaseFits_ends rfl hrow (endsRequest_raise _ _)
  · exact h.phaseFits_ends rfl hrow (endsRequest_finish (hf bs hlen) _)

/-- The last write of the row. -/
theorem PlainRun.last_writeN (h : PlainRun i done s) (hs : PhaseFits s) {addr : Byte} {bytes : List Byte}
    {k : State → State} (ht : writeN addr bytes k s = .next t)
    (hrow : done ++ [.write addr bytes.length] = transferRow i) (hk : ∀ u, EndsRequest u (k u)) : PhaseFits t := by
  obtain ⟨-, rfl⟩ | ⟨rest, -, rfl⟩ | ⟨rest, -, rfl⟩ := writeN_next ht
  · exact hs
  · exact h.phaseFits_ends rfl hrow (endsRequest_raise _ _)
  · exact h.phaseFits_ends rfl hrow (hk _)

theorem PlainRun.last_writeByte (h : PlainRun i done s) (hs : PhaseFits s) {addr b : Byte}
    (ht : writeByte addr b s = .next t) (hrow : done ++ [.write addr 1] = transferRow i) : PhaseFits t :=
  h.last_writeN hs ht hrow fun u => endsRequest_finish (Response.wellFormed_value _) u

theorem PlainRun.last_setLimit (h : PlainRun i done s) (hs : PhaseFits s) {addr : Byte} {c : Word32}
    (ht : setLimit addr c s = .next t) (hrow : done ++ [.write addr 2] = transferRow i) : PhaseFits t := by
  unfold setLimit at ht
  split at ht
  · exact phaseFits_of_respondNow ht
  · exact h.last_writeN hs ht hrow fun u => endsRequest_finish (Response.wellFormed_value _) u

/-- Between two primitives a plain request stands at a position before its response, its row performed up to there. -/
theorem PlainRun.phaseFits_moves (h : PlainRun i done s) {e : Event} {q : Pos}
    (hphase : u.phase = .run i q) (hwait : u.wait = s.wait) (hee : u.ee = s.ee)
    (htrace : u.trace = s.trace ++ [e]) (hfits : PosFits i q = true)
    (hq : q = .triggered ∨ q = .delayed ∨ ∃ b, q = .commandRead b)
    (htransfers : TransfersFit i (done ++ e.transfer?.toList) q) : PhaseFits u := by
  have hwait' : u.wait = none := hwait.trans h.wait
  have hee' : u.ee = .idle := hee.trans h.ee
  have hts : Machine.transfers u.trace = done ++ e.transfer?.toList := by
    rw [htrace, transfers_append_singleton, h.transfers]
  refine (phaseFits_run hphase).mpr ?_
  obtain rfl | rfl | ⟨b, rfl⟩ := hq <;>
    exact ⟨hfits, nofun, hwait', hee', hts ▸ htransfers, trivial⟩

end

/-! ### The requests of several primitives -/

theorem singleShotBody_phaseFits {pos : Pos} {s t : State} (hs : s.phase = .run .singleShot pos)
    (hfits : RunFits .singleShot pos s) (ht : singleShotBody pos s = .next t) : PhaseFits t := by
  have hstay : PhaseFits s := (phaseFits_run hs).mpr hfits
  cases pos with
  | start =>
    have hrun : PlainRun .singleShot [] s := hfits.plainRun_start hs rfl
    obtain ⟨-, rfl⟩ | ⟨rest, -, rfl⟩ | ⟨rest, -, rfl⟩ := writeN_next (addr := Addr.command) ht
    · exact hstay
    · exact hrun.phaseFits_raise rest rfl ⟨[.read 0x00 3], rfl⟩ nofun
    · exact hrun.phaseFits_moves (by simp [hs]) rfl rfl rfl rfl (.inl rfl) rfl
  | triggered =>
    have hrun : PlainRun .singleShot [.write 0x04 1] s :=
      ⟨rfl, ⟨_, hs⟩, hfits.waitFits, hfits.eeFits, hfits.transfersFit⟩
    obtain ⟨-, rfl⟩ | ⟨rest, -, rfl⟩ := sleep_next (d := latency s.cfg) (k := (·.moveTo .delayed)) ht
    · exact hstay
    · exact hrun.phaseFits_moves (by simp [hs]) rfl rfl rfl rfl (.inr (.inl rfl)) rfl
  | delayed =>
    have hrun : PlainRun .singleShot [.write 0x04 1] s :=
      ⟨rfl, ⟨_, hs⟩, hfits.waitFits, hfits.eeFits, hfits.transfersFit⟩
    exact hrun.last_readN hstay ht rfl fun bs _ => wellFormed_singleShotResponse bs
  | _ => cases ht

theorem readTempBody_phaseFits {wait checked : Bool} {pos : Pos} {s t : State}
    (hs : s.phase = .run (.readTemp wait checked) pos) (hfits : RunFits (.readTemp wait checked) pos s)
    (ht : readTempBody wait checked pos s = .next t) : PhaseFits t := by
  have hstay : PhaseFits s := (phaseFits_run hs).mpr hfits
  cases pos with
  | start =>
    have hrun : PlainRun (.readTemp wait checked) [] s := hfits.plainRun_start hs rfl
    cases wait with
    | true =>
      obtain ⟨-, rfl⟩ | ⟨rest, -, rfl⟩ := sleep_next (d := latency s.cfg) (k := (·.moveTo .delayed)) ht
      · exact hstay
      · exact hrun.phaseFits_moves (by simp [hs]) rfl rfl rfl rfl (.inr (.inl rfl)) rfl
    | false => exact hrun.last_readN hstay ht rfl fun bs _ => wellFormed_readTempResponse checked bs
  | delayed =>
    have hrun : PlainRun (.readTemp wait checked) [] s :=
      ⟨rfl, ⟨_, hs⟩, hfits.waitFits, hfits.eeFits, hfits.transfersFit⟩
    exact hrun.last_readN hstay ht rfl fun bs _ => wellFormed_readTempResponse checked bs
  | _ => cases ht

/-- HEATER_ON and HEATER_OFF, the two requests that read COMMAND and write it back (41_session.md R150, R151). -/
theorem heaterBody_phaseFits {i : Instr} (hi : i = .heaterOn ∨ i = .heaterOff) {f : Byte → Byte} {pos : Pos}
    {s t : State} (hs : s.phase = .run i pos) (hfits : RunFits i pos s) (ht : heaterBody f pos s = .next t) :
    PhaseFits t := by
  have hstay : PhaseFits s := (phaseFits_run hs).mpr hfits
  have hplain : isPlain i = true := by obtain rfl | rfl := hi <;> rfl
  have hrow : transferRow i = [.read 0x04 1, .write 0x04 1] := by obtain rfl | rfl := hi <;> rfl
  cases pos with
  | start =>
    have hrun : PlainRun i [] s := hfits.plainRun_start hs hplain
    have hfirst : [] ++ [.read 0x04 1] <+: transferRow i := hrow ▸ ⟨[.write 0x04 1], rfl⟩
    obtain ⟨-, rfl⟩ | ⟨rest, -, rfl⟩ | ⟨bs, rest, -, -, rfl⟩ | ⟨bs, rest, -, -, rfl⟩ :=
      readN_next (addr := Addr.command) (n := 1) (k := fun bs u => u.moveTo (.commandRead (byteAt bs 0))) ht
    · exact hstay
    · exact hrun.phaseFits_raise rest rfl hfirst nofun
    · exact hrun.phaseFits_raise rest rfl hfirst nofun
    · have hpos : PosFits i (.commandRead (byteAt bs 0)) = true := by simpa [PosFits] using hi
      exact hrun.phaseFits_moves (by simp [hs]) rfl rfl rfl hpos (.inr (.inr ⟨_, rfl⟩)) rfl
  | commandRead b =>
    have hrun : PlainRun i [.read 0x04 1] s := ⟨hplain, ⟨_, hs⟩, hfits.waitFits, hfits.eeFits, hfits.transfersFit⟩
    exact hrun.last_writeN hstay ht hrow.symm fun u => endsRequest_finish (Response.wellFormed_value _) u
  | _ => cases ht

/-! ### The wait engine -/

/-- A request that responds: neither a codec request nor LAST_ERROR, which emit at their start. -/
theorem posFits_respond_of_waitOf {i : Instr} (hi : (waitOf i).isSome = true) (r : Response) :
    PosFits i (.respond r) = true := by
  cases i with
  | eeCopyPage | eeRecallPage | eeFullRecall | eeSoftReset | waitConversion | waitEeprom => rfl
  | _ => cases hi

theorem transfersWith_zero (i : Instr) : transfersWith i 0 = transferRow i := by
  simp [transfersWith]

theorem transfersWith_succ {i : Instr} (hi : (waitOf i).isSome = true) (k : Nat) :
    transfersWith i (k + 1) = transfersWith i k ++ [pollTransfer] := by
  simp [transfersWith, hi, List.replicate_succ']

/-- `s` runs the waiting request `i` inside its wait `w`. -/
structure Polling (i : Instr) (w : Wait) (s : State) : Prop where
  phase : ∃ pos, s.phase = .run i pos
  wait : s.wait = some w
  state : w.state = .polling
  watches : waitOf i = some (w.bit, w.timeout)
  ee : s.ee = if isEeprom i then .polling else .idle
  transfers : ∃ k, transfers s.trace = transfersWith i k

theorem RunFits.polling {i : Instr} {pos : Pos} {s : State} (h : RunFits i pos s) (hs : s.phase = .run i pos)
    (hpos : pos.inWaitLoop = true) : ∃ w, Polling i w s := by
  cases pos with
  | waitPoll | waitClock | waitPause =>
    obtain ⟨w, hw, hstate, hwatches⟩ := h.waitFits
    exact ⟨w, ⟨_, hs⟩, hw, hstate, hwatches, h.eeFits, h.transfersFit⟩
  | _ => cases hpos

section
variable {i : Instr} {w : Wait} {s : State}

theorem Polling.waits (h : Polling i w s) : (waitOf i).isSome = true := by simp [h.watches]

theorem Polling.answered_of_no_transfer (h : Polling i w s) {e : Event} (he : e.transfer? = none)
    (rest : List Answer) : Polling i w (s.answered rest e) := by
  obtain ⟨k, hk⟩ := h.transfers
  exact { h with transfers := ⟨k, by simp [he, hk]⟩ }

theorem Polling.answered_poll (h : Polling i w s) {e : Event} (he : e.transfer? = some pollTransfer)
    (rest : List Answer) : Polling i w (s.answered rest e) := by
  obtain ⟨k, hk⟩ := h.transfers
  exact { h with transfers := ⟨k + 1, by simp [he, hk, transfersWith_succ h.waits]⟩ }

theorem Polling.phaseFits_moveTo (h : Polling i w s) {q : Pos} (hq : q.inWaitLoop = true) :
    PhaseFits (s.moveTo q) := by
  obtain ⟨pos, hs⟩ := h.phase
  have hphase : (s.moveTo q).phase = .run i q := by rw [State.moveTo_phase, hs, Phase.moveTo_run]
  refine (phaseFits_run hphase).mpr ?_
  cases q with
  | waitPoll | waitClock | waitPause =>
    exact ⟨h.waits, nofun, ⟨w, h.wait, h.state, h.watches⟩, h.ee, h.transfers, trivial⟩
  | _ => cases hq

/-- The end of a wait: WAIT is in the state of its outcome, and EE_STATE is DONE for an EEPROM request that goes on to
status OK (42_wait_eeprom.md R191, R195). -/
theorem Polling.phaseFits_responds (h : Polling i w s) {ws : WaitState} {r : Response} {u : State}
    (hphase : u.phase = s.phase.moveTo (.respond r)) (hwait : u.wait = some { w with state := ws })
    (htrace : u.trace = s.trace) (hee : u.ee = if isEeprom i = true ∧ r.status = .ok then .done else s.ee)
    (houtcome : WaitOutcome ws r.status) (hwf : r.wellFormed = true) : PhaseFits u := by
  obtain ⟨pos, hs⟩ := h.phase
  obtain ⟨k, hk⟩ := h.transfers
  rw [hs, Phase.moveTo_run] at hphase
  rw [h.ee] at hee
  refine (phaseFits_run hphase).mpr
    ⟨posFits_respond_of_waitOf h.waits r, nofun, ?_, ?_, ⟨⟨k, ?_⟩, ?_⟩, hwf⟩
  · rw [hwait]
    exact ⟨h.watches, houtcome⟩
  · by_cases heeprom : isEeprom i = true <;> by_cases hok : r.status = .ok <;> simp_all [EeFits]
  · rw [htrace, hk]
  · rintro -
    rw [htrace, hk]
    exact List.prefix_append _ _

/-- A wait that ends in TRANSPORT_ERROR or TIMED_OUT raises. -/
theorem Polling.phaseFits_raise (h : Polling i w s) {ws : WaitState} {e : Status} (he : e ≠ .ok)
    (houtcome : WaitOutcome ws e) : PhaseFits ((s.setWait { w with state := ws }).raise e) :=
  h.phaseFits_responds rfl rfl rfl (by simp [he]) houtcome (Response.wellFormed_failed e)

/-- What a waiting request does with the last status byte: an EEPROM request is DONE, and the request ends with status
OK and that byte (42_wait_eeprom.md R195, R200, R201). -/
def EndsWait (i : Instr) (ready : Byte → State → State) : Prop :=
  ∀ b u, ∃ v, ready b u = (if isEeprom i then u.setEe .done else u).finish (.result v [b])

theorem Polling.phaseFits_ready (h : Polling i w s) {ready : Byte → State → State} (hready : EndsWait i ready)
    (b : Byte) : PhaseFits (ready b (s.setWait { w with state := .ready })) := by
  obtain ⟨v, hv⟩ := hready b (s.setWait { w with state := .ready })
  rw [hv]
  refine h.phaseFits_responds (ws := .ready) (r := .result v [b]) ?_ ?_ ?_ ?_ rfl
    (Response.wellFormed_result (by simp) _ _) <;>
  by_cases heeprom : isEeprom i = true <;> simp [heeprom]

theorem Polling.phaseFits_afterPoll (h : Polling i w s) {bit : WaitBit} {ready : Byte → State → State}
    (hready : EndsWait i ready) (a : ReadAnswer) : PhaseFits (afterPoll bit ready w a s) := by
  obtain ⟨-, heq⟩ | ⟨-, heq⟩ | ⟨b, bs, -, -, heq⟩ | ⟨b, bs, -, -, heq⟩ := afterPoll_cases bit ready w a s <;> rw [heq]
  · exact h.phaseFits_raise nofun (.inl rfl)
  · exact h.phaseFits_raise nofun (.inr rfl)
  · exact h.phaseFits_moveTo rfl
  · exact h.phaseFits_ready hready b

theorem Polling.phaseFits_afterClock (h : Polling i w s) (c : Nat) : PhaseFits (afterClock w c s) := by
  obtain ⟨-, heq⟩ | ⟨-, heq⟩ := afterClock_cases w c s <;> rw [heq]
  · exact h.phaseFits_raise nofun rfl
  · exact h.phaseFits_moveTo rfl

end

theorem waitLoop_phaseFits {i : Instr} {pos : Pos} {bit : WaitBit} {ready : Byte → State → State} {s t : State}
    (hs : s.phase = .run i pos) (hfits : RunFits i pos s) (hready : EndsWait i ready)
    (ht : waitLoop bit ready pos s = .next t) : PhaseFits t := by
  have hstay : PhaseFits s := (phaseFits_run hs).mpr hfits
  obtain ⟨w, hw, hcases⟩ := waitLoop_next ht
  have hpos : pos.inWaitLoop = true := by obtain ⟨rfl, -⟩ | ⟨rfl, -⟩ | ⟨rfl, -⟩ := hcases <;> rfl
  obtain ⟨w', hpolling⟩ := hfits.polling hs hpos
  obtain rfl : w = w' := Option.some.inj (hw.symm.trans hpolling.wait)
  obtain ⟨-, hread⟩ | ⟨-, hnow⟩ | ⟨-, hsleep⟩ := hcases
  · obtain ⟨-, rfl⟩ | ⟨a, rest, -, -, rfl⟩ := memRead_next hread
    · exact hstay
    · exact (hpolling.answered_poll rfl rest).phaseFits_afterPoll hready a
  · obtain ⟨-, rfl⟩ | ⟨c, rest, -, rfl⟩ := now_next hnow
    · exact hstay
    · exact (hpolling.answered_of_no_transfer rfl rest).phaseFits_afterClock c
  · obtain ⟨-, rfl⟩ | ⟨rest, -, rfl⟩ := sleep_next hsleep
    · exact hstay
    · exact (hpolling.answered_of_no_transfer rfl rest).phaseFits_moveTo rfl

/-- The entry of a wait, the row of the request performed. -/
theorem waitEnter_phaseFits {i : Instr} {pos : Pos} {bit : WaitBit} {timeout : Word32} {s t : State}
    (hs : s.phase = .run i pos) (hstay : PhaseFits s) (hwaitOf : waitOf i = some (bit, timeout))
    (hee : s.ee = if isEeprom i then .polling else .idle) (hrow : transfers s.trace = transferRow i)
    (ht : waitEnter bit timeout s = .next t) : PhaseFits t := by
  obtain ⟨-, rfl⟩ | ⟨c, rest, -, rfl⟩ := waitEnter_next ht
  · exact hstay
  · have hpolling : Polling i ⟨.polling, c, timeout, bit⟩
        ((s.answered rest (.now c)).setWait ⟨.polling, c, timeout, bit⟩) :=
      ⟨⟨pos, hs⟩, rfl, rfl, hwaitOf, hee, 0, by simp [Event.transfer?, hrow, transfersWith_zero]⟩
    exact hpolling.phaseFits_moveTo rfl

/-! ### The EEPROM sequence and the stand-alone waits -/

theorem eeCommand_phaseFits {i : Instr} {code : Byte} {wait : Bool} {timeout : Word32} {s t : State}
    (hs : s.phase = .run i .start) (hfits : RunFits i .start s) (heeprom : isEeprom i = true)
    (hwaitOf : waitOf i = if wait then some (.eeprom, timeout) else none) (hrow : transferRow i = [.write 0x17 1])
    (ht : memWrite Addr.eeCmd [code] (afterEeCommand code wait) s = .next t) : PhaseFits t := by
  have hwait : s.wait = none := hfits.waitFits
  have hts : transfers s.trace = [] := hfits.transfersFit
  have hrespond : ∀ r, PosFits i (.respond r) = true := by
    intro r
    cases i with
    | eeCopyPage | eeRecallPage | eeFullRecall | eeSoftReset => rfl
    | _ => cases heeprom
  obtain ⟨-, rfl⟩ | ⟨ok, rest, -, rfl⟩ := memWrite_next ht
  · exact (phaseFits_run hs).mpr hfits
  · have hdone : transfers (s.answered rest (.memWrite Addr.eeCmd [code] ok)).trace = transferRow i := by
      simp [hts, hrow, Event.transfer?, Addr.eeCmd]
    have hprefix : transferRow i <+: transfersWith i 0 := List.prefix_append _ _
    obtain ⟨-, heq⟩ | ⟨-, rfl, heq⟩ | ⟨-, rfl, heq⟩ :=
      afterEeCommand_cases code wait ok (s.answered rest (.memWrite Addr.eeCmd [code] ok)) <;> rw [heq]
    · refine (phaseFits_run (i := i) (pos := .respond (.failed .transportFailure)) (by simp [hs])).mpr
        ⟨hrespond _, nofun, ?_, ?_, ⟨⟨0, hdone ▸ hprefix⟩, nofun⟩, rfl⟩
      · simp [WaitFits, hwait, heeprom]
      · simp [EeFits, heeprom]
    · refine (phaseFits_run (i := i) (pos := .respond (.result (zext32 code))) (by simp [hs])).mpr
        ⟨hrespond _, nofun, ?_, ?_, ⟨⟨0, hdone ▸ hprefix⟩, fun _ => hdone ▸ List.prefix_refl _⟩,
          Response.wellFormed_value _⟩
      · simp [WaitFits, hwait, hwaitOf]
      · simp [EeFits, heeprom]
    · refine (phaseFits_run (i := i) (pos := .waitEnter) (by simp [hs])).mpr ⟨?_, nofun, hwait, rfl, hdone, trivial⟩
      simp [PosFits, heeprom, hwaitOf]

theorem eeSequence_phaseFits {i : Instr} {code : Byte} {wait : Bool} {timeout : Word32} {pos : Pos} {s t : State}
    (hs : s.phase = .run i pos) (hfits : RunFits i pos s) (heeprom : isEeprom i = true)
    (hwaitOf : waitOf i = if wait then some (.eeprom, timeout) else none) (hrow : transferRow i = [.write 0x17 1])
    (ht : eeSequence code wait timeout pos s = .next t) : PhaseFits t := by
  obtain ⟨rfl, hwrite⟩ | ⟨rfl, hnow⟩ | ⟨-, -, hloop⟩ := eeSequence_next ht
  · exact eeCommand_phaseFits hs hfits heeprom hwaitOf hrow hwrite
  · have hwait : wait = true := by
      have := hfits.posFits
      cases wait with
      | true => rfl
      | false => simp [PosFits, hwaitOf] at this
    have hee : s.ee = .polling := hfits.eeFits
    exact waitEnter_phaseFits hs ((phaseFits_run hs).mpr hfits) (by rw [hwaitOf, if_pos hwait])
      (by rw [hee, if_pos heeprom]) hfits.transfersFit hnow
  · exact waitLoop_phaseFits hs hfits (fun b u => ⟨zext32 code, by rw [if_pos heeprom]; rfl⟩) hloop

theorem waitAlone_phaseFits {i : Instr} {bit : WaitBit} {timeout : Word32} {pos : Pos} {s t : State}
    (hs : s.phase = .run i pos) (hfits : RunFits i pos s) (heeprom : isEeprom i = false)
    (hwaitOf : waitOf i = some (bit, timeout)) (hrow : transferRow i = [])
    (ht : waitAlone bit timeout pos s = .next t) : PhaseFits t := by
  obtain ⟨rfl, hnow⟩ | ⟨-, hloop⟩ := waitAlone_next ht
  · have hee : s.ee = .idle := hfits.eeFits
    have hts : transfers s.trace = [] := hfits.transfersFit
    exact waitEnter_phaseFits hs ((phaseFits_run hs).mpr hfits) hwaitOf (by rw [hee, heeprom]; rfl)
      (hts.trans hrow.symm) hnow
  · exact waitLoop_phaseFits hs hfits (fun b u => ⟨0, by rw [heeprom]; rfl⟩) hloop

/-! ### One step of the machine -/

/-- A running request whose response is not due keeps the fit of its position. -/
theorem exec_phaseFits {i : Instr} {pos : Pos} {s t : State} (hs : s.phase = .run i pos)
    (hpos : ∀ r, pos ≠ .respond r) (hfits : RunFits i pos s) (ht : exec i s = .next t) : PhaseFits t := by
  have hstay : PhaseFits s := (phaseFits_run hs).mpr hfits
  cases i with
  | readTemp => exact readTempBody_phaseFits hs hfits (body_next hs hpos ht)
  | singleShot => exact singleShotBody_phaseFits hs hfits (body_next hs hpos ht)
  | heaterOn => exact heaterBody_phaseFits (.inl rfl) hs hfits (body_next hs hpos ht)
  | heaterOff => exact heaterBody_phaseFits (.inr rfl) hs hfits (body_next hs hpos ht)
  | eeCopyPage wait | eeRecallPage wait | eeFullRecall wait | eeSoftReset wait =>
    exact eeSequence_phaseFits hs hfits rfl (by cases wait <;> rfl) rfl (body_next hs hpos ht)
  | waitConversion | waitEeprom => exact waitAlone_phaseFits hs hfits rfl rfl rfl (body_next hs hpos ht)
  | encCmd | decCmd | encCfg | decCfg | decStatus | encAlert | decAlert | decRaw | rawToC | cToRaw | crc8Upd
  | lastError =>
    obtain ⟨-, hfirst⟩ := atStart_next (body_next hs hpos ht)
    exact phaseFits_of_respondNow hfirst
  | configure | setMode =>
    obtain ⟨rfl, hfirst⟩ := atStart_next (body_next hs hpos ht)
    exact (hfits.plainRun_start hs rfl).last_writeN hstay hfirst rfl
      fun u => ⟨_, Response.wellFormed_value _, rfl, rfl, rfl, rfl⟩
  | readStatus | getAlertMode | getHighLimit | getLowLimit | readDeviceId =>
    obtain ⟨rfl, hfirst⟩ := atStart_next (body_next hs hpos ht)
    exact (hfits.plainRun_start hs rfl).last_readN hstay hfirst rfl
      fun bs _ => Response.wellFormed_result (by simp) _ _
  | readRomCode =>
    obtain ⟨rfl, hfirst⟩ := atStart_next (body_next hs hpos ht)
    exact (hfits.plainRun_start hs rfl).last_readN hstay hfirst rfl
      fun bs hlen => Response.wellFormed_result (by omega) _ _
  | readScratch | readScratchExt =>
    obtain ⟨rfl, hfirst⟩ := atStart_next (body_next hs hpos ht)
    exact (hfits.plainRun_start hs rfl).last_readN hstay hfirst rfl
      fun bs _ => wellFormed_scratchResponse (by decide) bs
  | isBusy =>
    obtain ⟨rfl, hfirst⟩ := atStart_next (body_next hs hpos ht)
    exact (hfits.plainRun_start hs rfl).last_memRead hstay hfirst rfl
      fun a u => endsRequest_finish (wellFormed_isBusyResponse a) u
  | setAlertMode | setParasitic =>
    obtain ⟨rfl, hfirst⟩ := atStart_next (body_next hs hpos ht)
    exact (hfits.plainRun_start hs rfl).last_writeByte hstay hfirst rfl
  | setHighLimit | setLowLimit =>
    obtain ⟨rfl, hfirst⟩ := atStart_next (body_next hs hpos ht)
    exact (hfits.plainRun_start hs rfl).last_setLimit hstay hfirst rfl
  | readUserReg index =>
    obtain ⟨rfl, hfirst⟩ := atStart_next (body_next hs hpos ht)
    split at hfirst
    · exact (hfits.plainRun_start hs rfl).last_readN hstay hfirst rfl
        fun bs _ => Response.wellFormed_result (by simp) _ _
    · exact phaseFits_of_respondNow hfirst
  | writeUserReg index value =>
    obtain ⟨rfl, hfirst⟩ := atStart_next (body_next hs hpos ht)
    split at hfirst
    · exact (hfits.plainRun_start hs rfl).last_writeByte hstay hfirst rfl
    · exact phaseFits_of_respondNow hfirst

theorem step_phaseFits {s t : State} (hs : PhaseFits s) (ht : step s = .next t) : PhaseFits t := by
  obtain ⟨-, -, rfl⟩ | ⟨w, ws, i, hidle, -, -, rfl⟩ | ⟨w, ws, hidle, -, -, rfl⟩ | ⟨op, -, rfl⟩ | ⟨i, r, -, rfl⟩ |
    ⟨i, pos, hrun, hpos, hexec⟩ := step_next ht
  · exact hs
  · obtain ⟨hwait, hee⟩ : s.wait = none ∧ s.ee = .idle := by simpa [PhaseFits, hidle] using hs
    exact RunFits.mk rfl (fun _ => rfl) hwait hee rfl trivial
  · obtain ⟨hwait, hee⟩ : s.wait = none ∧ s.ee = .idle := by simpa [PhaseFits, hidle] using hs
    exact ⟨hwait, hee, rfl⟩
  · exact phaseFits_emit s _
  · exact phaseFits_emit s r
  · exact exec_phaseFits hrun hpos ((phaseFits_run hrun).mp hs) hexec

/-- The record at the response port stays well formed: only a well-formed response is ever due. -/
theorem step_rsp_wellFormed {s t : State} (hs : WellPhased s) (ht : step s = .next t) : t.rsp.wellFormed = true := by
  have hrsp := hs.rspWellFormed
  obtain ⟨-, -, rfl⟩ | ⟨w, ws, i, -, -, -, rfl⟩ | ⟨w, ws, -, -, -, rfl⟩ | ⟨op, -, rfl⟩ | ⟨i, r, hrun, rfl⟩ |
    ⟨i, pos, hrun, hpos, hexec⟩ := step_next ht
  · exact hrsp
  · exact hrsp
  · exact hrsp
  · exact wellFormed_illegalResponse
  · exact ((phaseFits_run hrun).mp hs.phaseFits).responseFits
  · exact (exec_runFrame hrun hpos hexec).rsp hrsp

/-- Settles O13: each part of the invariant is kept by the lemma above it. -/
theorem stepKeepsTheSequencerInvariant : Obligations.StepKeepsTheSequencerInvariant := by
  intro s t hs ht
  obtain ⟨hbusAddr, hparams⟩ := step_busAddr_params ht
  exact { phaseFits := step_phaseFits hs.phaseFits ht
          busAddr := by rw [hbusAddr, hparams, hs.busAddr]
          rspWellFormed := step_rsp_wellFormed hs ht }

end Sys2Proof.Machine
end

section
/-! SUPPORT. Proofs of the statements that a running request always goes on and that it waits unchanged while its
primitive is unanswered (20_memory.md R61; 60_exceptions.md R221, R226). The walk over the positions says of each step
which primitive it takes, and that a failed transfer leaves nothing but the response. -/

namespace Sys2Proof.Machine

/-! ### Taking one primitive -/

/-- The result `r` of a step from `s` is that of taking the primitive `p`: with no answer at hand the state stays, an
answer of `p` leads to a next state, and after a failed transfer only a response is due (20_memory.md R61;
60_exceptions.md R226). -/
structure Takes (p : Primitive) (s : State) (r : Result) : Prop where
  unanswered : s.answers = [] → r = .next s
  answered : ∀ a rest e, s.answers = a :: rest → p.event? a = some e →
    ∃ t, r = .next t ∧ (e.failed = true → ∃ q, t.phase = s.phase.moveTo (.respond q))

theorem memRead_takes {addr : Byte} {n : Nat} {k : ReadAnswer → State → State} {s : State}
    (hk : ∀ a u, (Event.memRead addr n a).failed = true → ∃ q, (k a u).phase = u.phase.moveTo (.respond q)) :
    Takes (.memRead addr n) s (memRead addr n k s) where
  unanswered := memRead_unanswered
  answered := by
    intro a rest e ha he
    cases a with
    | read b =>
      have hfits : b.fits n = true ∧ Event.memRead addr n b = e := by
        cases b <;> simpa [Primitive.event?, ReadAnswer.fits] using he
      obtain ⟨hfits, rfl⟩ := hfits
      exact ⟨_, memRead_answered ha hfits, hk b _⟩
    | _ => cases he

theorem memWrite_takes {addr : Byte} {bytes : List Byte} {k : Bool → State → State} {s : State}
    (hk : ∀ u, ∃ q, (k false u).phase = u.phase.moveTo (.respond q)) :
    Takes (.memWrite addr bytes) s (memWrite addr bytes k s) where
  unanswered := memWrite_unanswered
  answered := by
    intro a rest e ha he
    cases a with
    | written ok =>
      cases he
      refine ⟨_, memWrite_answered ha, fun hfailed => ?_⟩
      obtain rfl : ok = false := by simpa [Event.failed] using hfailed
      exact hk _
    | _ => cases he

theorem now_takes (k : Nat → State → State) (s : State) : Takes .now s (now k s) where
  unanswered := now_unanswered
  answered := by
    intro a rest e ha he
    cases a with
    | time c =>
      cases he
      exact ⟨_, now_answered ha, nofun⟩
    | _ => cases he

theorem sleep_takes (d : Nat) (k : State → State) (s : State) : Takes (.sleep d) s (sleep d k s) where
  unanswered := sleep_unanswered
  answered := by
    intro a rest e ha he
    cases a with
    | slept =>
      cases he
      exact ⟨_, sleep_answered ha, nofun⟩
    | _ => cases he

theorem readN_takes (addr : Byte) (n : Nat) (k : List Byte → State → State) (s : State) :
    Takes (.memRead addr n) s (readN addr n k s) := by
  refine memRead_takes fun a u hfailed => ?_
  cases a with
  | fail => exact ⟨_, rfl⟩
  | bytes bs =>
    have hshort : bs.length < n := by simpa [Event.failed] using hfailed
    rw [afterReadN_short u hshort]
    exact ⟨_, rfl⟩

theorem writeN_takes (addr : Byte) (bytes : List Byte) (k : State → State) (s : State) :
    Takes (.memWrite addr bytes) s (writeN addr bytes k s) :=
  memWrite_takes fun _ => ⟨_, rfl⟩

theorem waitEnter_takes (bit : WaitBit) (timeout : Word32) (s : State) : Takes .now s (waitEnter bit timeout s) :=
  now_takes _ s

theorem eeCommand_takes (code : Byte) (wait : Bool) (s : State) :
    Takes (.memWrite 0x17 [code]) s (memWrite Addr.eeCmd [code] (afterEeCommand code wait) s) :=
  memWrite_takes fun _ => ⟨_, rfl⟩

/-- The status read of a poll: a failed or empty answer ends the wait (42_wait_eeprom.md R191). -/
theorem poll_takes (bit : WaitBit) (ready : Byte → State → State) (w : Wait) (s : State) :
    Takes (.memRead 0x03 1) s (memRead Addr.status 1 (afterPoll bit ready w) s) := by
  refine memRead_takes fun a u hfailed => ?_
  obtain ⟨-, heq⟩ | ⟨-, heq⟩ | ⟨b, bs, rfl, -⟩ | ⟨b, bs, rfl, -⟩ := afterPoll_cases bit ready w a u
  · exact ⟨_, by rw [heq]; rfl⟩
  · exact ⟨_, by rw [heq]; rfl⟩
  · simp [Event.failed] at hfailed
  · simp [Event.failed] at hfailed

/-- A running request takes what its pseudocode takes at its position. -/
theorem takes_of_body {i : Instr} {body : Pos → State → Result} {s : State} {pos : Pos} {p : Primitive}
    (hs : s.phase = .run i pos) (hr : ∀ r, pos ≠ .respond r) (hb : Takes p s (body pos s)) :
    Takes p s (perform i body s) := by
  rwa [perform_body hs hr]

/-! ### What each position takes -/

theorem exec_start_takes {i : Instr} {s : State} {p : Primitive} (hs : s.phase = .run i .start)
    (hp : firstPrimitive s i = some p) : Takes p s (exec i s) := by
  cases i with
  | encCmd | decCmd | encCfg | decCfg | decStatus | encAlert | decAlert | decRaw | rawToC | cToRaw | crc8Upd
  | lastError => cases hp
  | configure | setMode | singleShot | setAlertMode | setParasitic =>
    cases hp
    exact takes_of_body hs nofun (writeN_takes _ _ _ s)
  | readTemp wait checked =>
    cases hp
    cases wait with
    | true => exact takes_of_body hs nofun (sleep_takes _ (·.moveTo .delayed) s)
    | false => exact takes_of_body hs nofun (readN_takes _ _ _ s)
  | readStatus | heaterOn | heaterOff | getAlertMode | getHighLimit | getLowLimit | readDeviceId | readRomCode
  | readScratch | readScratchExt =>
    cases hp
    exact takes_of_body hs nofun (readN_takes _ _ _ s)
  | isBusy =>
    cases hp
    exact takes_of_body hs nofun
      (memRead_takes (k := fun a t => t.finish (isBusyResponse a)) fun a _ _ => ⟨isBusyResponse a, rfl⟩)
  | setHighLimit c | setLowLimit c =>
    obtain ⟨raw, hraw, rfl⟩ := Option.map_eq_some_iff.mp hp
    refine takes_of_body hs nofun ?_
    simp only [atStart_start, setLimit, hraw]
    exact writeN_takes _ _ _ s
  | readUserReg index =>
    obtain ⟨hle, rfl⟩ : index.toNat ≤ 9 ∧ Primitive.memRead (0x0C + index) 1 = p := by
      simpa [firstPrimitive] using hp
    refine takes_of_body hs nofun ?_
    simp only [atStart_start, userIndexOk, hle, decide_true, if_true]
    exact readN_takes _ _ _ s
  | writeUserReg index value =>
    obtain ⟨hle, rfl⟩ : index.toNat ≤ 9 ∧ Primitive.memWrite (0x0C + index) [value] = p := by
      simpa [firstPrimitive] using hp
    refine takes_of_body hs nofun ?_
    simp only [atStart_start, userIndexOk, hle, decide_true, if_true]
    exact writeN_takes _ _ _ s
  | eeCopyPage | eeRecallPage | eeFullRecall | eeSoftReset =>
    cases hp
    exact takes_of_body hs nofun (eeCommand_takes _ _ s)
  | waitConversion | waitEeprom =>
    cases hp
    exact takes_of_body hs nofun (waitEnter_takes _ _ s)

/-- At its start, a request with no primitive emits its response (40_codec.md R110; 60_exceptions.md R223). -/
theorem exec_start_emits {i : Instr} {s : State} (hs : s.phase = .run i .start) (hp : firstPrimitive s i = none) :
    ∃ r, exec i s = .next (s.emit r) := by
  cases i with
  | encCmd | decCmd | encCfg | decCfg | decStatus | encAlert | decAlert | decRaw | rawToC | cToRaw | crc8Upd
  | lastError => exact ⟨_, perform_body hs nofun⟩
  | setHighLimit c | setLowLimit c =>
    have hnan : celsiusToRaw c = none := Option.map_eq_none_iff.mp hp
    refine ⟨.failed .parameterError, (perform_body hs nofun).trans ?_⟩
    simp [setLimit, hnan]
  | readUserReg index | writeUserReg index =>
    have hindex : userIndexOk index = false := by simpa [firstPrimitive, userIndexOk] using hp
    refine ⟨.failed .parameterError, (perform_body hs nofun).trans ?_⟩
    simp [hindex]
  | _ => cases hp

theorem exec_delayed_takes {i : Instr} {s : State} {p : Primitive} (hs : s.phase = .run i .delayed)
    (hfits : PosFits i .delayed = true) (hp : primitiveAt i s .delayed = some p) : Takes p s (exec i s) := by
  cases i with
  | readTemp wait checked =>
    cases checked <;> cases hp <;> exact takes_of_body hs nofun (readN_takes _ _ _ s)
  | singleShot =>
    cases hp
    exact takes_of_body hs nofun (readN_takes _ _ _ s)
  | _ => cases hfits

theorem exec_commandRead_takes {i : Instr} {s : State} {b : Byte} {p : Primitive}
    (hs : s.phase = .run i (.commandRead b)) (hfits : PosFits i (.commandRead b) = true)
    (hp : primitiveAt i s (.commandRead b) = some p) : Takes p s (exec i s) := by
  cases i with
  | heaterOn | heaterOff =>
    cases hp
    exact takes_of_body hs nofun (writeN_takes _ _ _ s)
  | _ => cases hfits

theorem exec_waitEnter_takes {i : Instr} {s : State} (hs : s.phase = .run i .waitEnter)
    (hfits : PosFits i .waitEnter = true) : Takes .now s (exec i s) := by
  cases i with
  | eeCopyPage | eeRecallPage | eeFullRecall | eeSoftReset => exact takes_of_body hs nofun (waitEnter_takes _ _ s)
  | _ => cases hfits

/-- The step inside the loop of a wait that the state holds (42_wait_eeprom.md R190). -/
theorem waitLoop_takes {bit : WaitBit} {ready : Byte → State → State} {i : Instr} {pos : Pos} {s : State}
    {p : Primitive} {w : Wait} (hw : s.wait = some w) (hpos : pos.inWaitLoop = true)
    (hp : primitiveAt i s pos = some p) : Takes p s (waitLoop bit ready pos s) := by
  cases pos with
  | waitPoll =>
    cases hp
    simp only [waitLoop, hw]
    exact poll_takes bit ready w s
  | waitClock =>
    cases hp
    simp only [waitLoop, hw]
    exact now_takes (afterClock w) s
  | waitPause =>
    cases hp
    simp only [waitLoop, hw]
    exact sleep_takes Config.pollIntervalMs (·.moveTo .waitPoll) s
  | _ => cases hpos

theorem exec_waitLoop_takes {i : Instr} {s : State} {pos : Pos} {p : Primitive} (hs : s.phase = .run i pos)
    (hfits : RunFits i pos s) (hpos : pos.inWaitLoop = true) (hp : primitiveAt i s pos = some p) :
    Takes p s (exec i s) := by
  obtain ⟨w, hpolling⟩ := hfits.polling hs hpos
  obtain ⟨bit, ready, -, heq⟩ := exec_waitLoop hs hpos hpolling.waits
  rw [heq]
  exact waitLoop_takes hpolling.wait hpos hp

/-- A running request that fits its position takes the primitive of that position. -/
theorem exec_takes {i : Instr} {s : State} {pos : Pos} {p : Primitive} (hs : s.phase = .run i pos)
    (hfits : RunFits i pos s) (hp : primitiveAt i s pos = some p) : Takes p s (exec i s) := by
  cases pos with
  | start => exact exec_start_takes hs hp
  | triggered =>
    obtain rfl : i = .singleShot := by simpa [PosFits] using hfits.posFits
    cases hp
    exact takes_of_body hs nofun (sleep_takes _ (·.moveTo .delayed) s)
  | delayed => exact exec_delayed_takes hs hfits.posFits hp
  | commandRead b => exact exec_commandRead_takes hs hfits.posFits hp
  | waitEnter =>
    cases hp
    exact exec_waitEnter_takes hs hfits.posFits
  | waitPoll | waitClock | waitPause => exact exec_waitLoop_takes hs hfits rfl hp
  | respond r => cases hp

/-- Before its response is due, only the start of a request can lack a primitive. -/
theorem primitiveAt_none {i : Instr} {s : State} {pos : Pos} (hpos : ∀ r, pos ≠ .respond r)
    (hp : primitiveAt i s pos = none) : pos = .start := by
  cases pos with
  | start => rfl
  | respond r => exact absurd rfl (hpos r)
  | delayed => simp only [primitiveAt] at hp; split at hp <;> cases hp
  | commandRead b => simp only [primitiveAt] at hp; split at hp <;> cases hp
  | _ => cases hp

/-! ### The obligations on one step -/

/-- Settles O16, from what the step of a position takes. -/
theorem unansweredPrimitiveLeavesTheStateUnchanged : Obligations.UnansweredPrimitiveLeavesTheStateUnchanged := by
  intro s i pos p hwf hs hp hnil
  have hfits : RunFits i pos s := (phaseFits_run hs).mp hwf.phaseFits
  exact (step_run hs).trans ((exec_takes hs hfits hp).unanswered hnil)

/-- A primitive within the transfer contract, answered or not, has a next state. -/
theorem Takes.has_next {p : Primitive} {s : State} {r : Result} (h : Takes p s r)
    (hcontract : ∀ a rest, s.answers = a :: rest → (p.event? a).isSome = true) : ∃ t, r = .next t := by
  cases ha : s.answers with
  | nil => exact ⟨s, h.unanswered ha⟩
  | cons a rest =>
    obtain ⟨e, he⟩ := Option.isSome_iff_exists.mp (hcontract a rest ha)
    obtain ⟨t, ht, -⟩ := h.answered a rest e ha he
    exact ⟨t, ht⟩

theorem step_run_has_next {s : State} {i : Instr} {pos : Pos} (hs : s.phase = .run i pos)
    (hpos : ∀ r, pos ≠ .respond r) (hfits : RunFits i pos s) (hcontract : NextAnswerFits s) :
    ∃ t, step s = .next t := by
  rw [step_run hs]
  cases hp : primitiveAt i s pos with
  | none =>
    obtain rfl := primitiveAt_none hpos hp
    obtain ⟨r, hr⟩ := exec_start_emits hs hp
    exact ⟨_, hr⟩
  | some p => exact (exec_takes hs hfits hp).has_next fun a rest ha => hcontract i pos p a rest hs hp ha

/-- Settles O14, by the phases: IDLE accepts or waits, an illegal word and a due response are emitted, and every other
position takes its primitive or emits. -/
theorem stepNeverStopsUnderTheTransferContract : Obligations.StepNeverStopsUnderTheTransferContract := by
  intro s hwf hcontract
  cases hs : s.phase with
  | idle =>
    cases hreq : s.requests with
    | nil => exact ⟨_, step_waits hs hreq⟩
    | cons w ws =>
      cases hdec : decode w with
      | none => exact ⟨_, step_illegal hs hreq hdec⟩
      | some i => exact ⟨_, step_accepts hs hreq hdec⟩
  | runIllegal op => exact ⟨_, step_runIllegal hs⟩
  | run i pos =>
    by_cases hrespond : ∃ r, pos = .respond r
    · obtain ⟨r, rfl⟩ := hrespond
      exact ⟨_, step_respond hs⟩
    · exact step_run_has_next hs (fun r h => hrespond ⟨r, h⟩) ((phaseFits_run hs).mp hwf.phaseFits) hcontract

end Sys2Proof.Machine
end

section
/-! SUPPORT. The transfers of a whole run are those of the request's row (20_memory.md R62, R65). That they are in the
row and in its order is part of the invariant of the sequencer; that a failure ends the request, and that refused
operands keep it from starting, is a second invariant that every step keeps. -/

namespace Sys2Proof.Machine

/-! ### Refused operands -/

/-- A binary32 word above an infinity, its sign apart, is a NaN (G1). -/
theorem celsiusToRaw_eq_none {c : Word32} (h : ¬ (c &&& 0x7FFFFFFF).toNat ≤ 0x7F800000) : celsiusToRaw c = none := by
  have hmod : (c &&& 0x7FFFFFFF).toNat = c.toNat % 2 ^ 31 := by
    rw [BitVec.toNat_and]
    exact Nat.and_two_pow_sub_one_eq_mod c.toNat 31
  have hexp : f32Exponent c = c.toNat / 2 ^ 23 % 2 ^ 8 := by
    simp [f32Exponent, BitVec.extractLsb'_toNat, Nat.shiftRight_eq_div_pow]
  have hfrac : f32Fraction c = c.toNat % 2 ^ 23 := by
    simp [f32Fraction, BitVec.extractLsb'_toNat]
  have hnan : f32IsNaN c = true := by
    simp only [f32IsNaN, Bool.and_eq_true, beq_iff_eq, bne_iff_ne, hexp, hfrac]
    omega
  simp [celsiusToRaw, hnan]

/-- A request whose operands are refused has no primitive (60_exceptions.md R223). -/
theorem firstPrimitive_of_refused {i : Instr} (s : State) (h : i.operandsInRange = false) :
    firstPrimitive s i = none := by
  cases i with
  | cToRaw => rfl
  | setHighLimit c | setLowLimit c =>
    have hnan : celsiusToRaw c = none := celsiusToRaw_eq_none (of_decide_eq_false h)
    simp [firstPrimitive, hnan]
  | readUserReg index | writeUserReg index => exact if_neg (of_decide_eq_false h)
  | _ => cases h

/-! ### A failure ends the request -/

/-- A running request has seen no failed transfer but in its last event, and none before its response is due; and one
with refused operands is still at its start (20_memory.md R65; 60_exceptions.md R223, R226). -/
structure FailureEnds (i : Instr) (pos : Pos) (s : State) : Prop where
  earlier : ∀ e ∈ s.trace.dropLast, e.failed = false
  ongoing : (∀ r, pos ≠ .respond r) → ∀ e ∈ s.trace, e.failed = false
  refused : i.operandsInRange = false → pos = .start

/-- Whatever request runs, a failure ends it. -/
def NoneAfterFailure (s : State) : Prop := ∀ i pos, s.phase = .run i pos → FailureEnds i pos s

theorem failureEnds_start {i : Instr} {s : State} (h : s.trace = []) : FailureEnds i .start s where
  earlier := by simp [h]
  ongoing := by simp [h]
  refused _ := rfl

theorem noneAfterFailure_emit (s : State) (r : Response) : NoneAfterFailure (s.emit r) := by
  intro i pos h
  cases h

/-- The next event of a request, whose failure makes the response due. -/
theorem FailureEnds.next {i : Instr} {pos q : Pos} {s t : State} {e : Event} (h : FailureEnds i pos s)
    (hpos : ∀ r, pos ≠ .respond r) (hrange : i.operandsInRange = true) (htrace : t.trace = s.trace ++ [e])
    (hfailed : e.failed = true → ∃ r, q = .respond r) : FailureEnds i q t where
  earlier := by
    rw [htrace, List.dropLast_concat]
    exact h.ongoing hpos
  ongoing hq := by
    have he : e.failed = false := by
      by_contra hne
      obtain ⟨r, hr⟩ := hfailed (Bool.eq_true_of_not_eq_false hne)
      exact hq r hr
    intro x hx
    rw [htrace, List.mem_append, List.mem_singleton] at hx
    obtain hx | rfl := hx
    · exact h.ongoing hpos x hx
    · exact he
  refused hno := by simp [hrange] at hno

/-- The step that takes a primitive. -/
theorem Takes.noneAfterFailure {i : Instr} {pos : Pos} {p : Primitive} {s t : State} (htakes : Takes p s (exec i s))
    (hperforms : Performs p s (exec i s)) (hs : s.phase = .run i pos) (hpos : ∀ r, pos ≠ .respond r)
    (hrange : i.operandsInRange = true) (h : NoneAfterFailure s) (ht : exec i s = .next t) : NoneAfterFailure t := by
  cases ha : s.answers with
  | nil =>
    obtain rfl : s = t := Host.Outcome.next.inj ((htakes.unanswered ha).symm.trans ht)
    exact h
  | cons a rest =>
    obtain ⟨e, he, -, htrace, hmoves⟩ := hperforms t a rest ha ht
    obtain ⟨t', ht', hfailed⟩ := htakes.answered a rest e ha he
    obtain rfl : t = t' := Host.Outcome.next.inj (ht.symm.trans ht')
    intro j q hphase
    obtain ⟨_, hmove⟩ := hmoves
    rw [hphase, State.answered_phase, hs, Phase.moveTo_run] at hmove
    obtain ⟨rfl, -⟩ := Phase.run.inj hmove
    refine (h j pos hs).next hpos hrange htrace fun hf => ?_
    obtain ⟨r, hr⟩ := hfailed hf
    rw [hphase, hs, Phase.moveTo_run] at hr
    exact ⟨r, (Phase.run.inj hr).2⟩

theorem exec_noneAfterFailure {i : Instr} {pos : Pos} {s t : State} (hs : s.phase = .run i pos)
    (hpos : ∀ r, pos ≠ .respond r) (hfits : RunFits i pos s) (h : NoneAfterFailure s) (ht : exec i s = .next t) :
    NoneAfterFailure t := by
  cases hp : primitiveAt i s pos with
  | none =>
    obtain rfl := primitiveAt_none hpos hp
    obtain ⟨r, hr⟩ := exec_start_emits hs hp
    obtain rfl : s.emit r = t := Host.Outcome.next.inj (hr.symm.trans ht)
    exact noneAfterFailure_emit s r
  | some p =>
    have hrange : i.operandsInRange = true := by
      by_contra hno
      have hrefused : i.operandsInRange = false := Bool.eq_false_of_not_eq_true hno
      obtain rfl : pos = .start := (h i pos hs).refused hrefused
      have hnone : primitiveAt i s .start = none := firstPrimitive_of_refused s hrefused
      simp [hnone] at hp
    exact (exec_takes hs hfits hp).noneAfterFailure (exec_performs hs hfits.posFits hp) hs hpos hrange h ht

theorem step_noneAfterFailure {s t : State} (hwf : WellPhased s) (h : NoneAfterFailure s) (ht : step s = .next t) :
    NoneAfterFailure t := by
  obtain ⟨-, -, rfl⟩ | ⟨w, ws, i, -, -, -, rfl⟩ | ⟨w, ws, -, -, -, rfl⟩ | ⟨op, -, rfl⟩ | ⟨i, r, -, rfl⟩ |
    ⟨i, pos, hs, hpos, hexec⟩ := step_next ht
  · exact h
  · intro j q hq
    obtain ⟨rfl, rfl⟩ := Phase.run.inj hq
    exact failureEnds_start rfl
  · intro j q hq
    cases hq
  · exact noneAfterFailure_emit s _
  · exact noneAfterFailure_emit s r
  · exact exec_noneAfterFailure hs hpos ((phaseFits_run hs).mp hwf.phaseFits) h hexec

/-- What every step keeps holds at the end of every run. -/
theorem steps_keep {P : State → Prop} (hstep : ∀ s t, P s → step s = .next t → P t) (n : Nat) {s t : State}
    (hs : P s) (ht : steps n s = .next t) : P t := by
  induction n generalizing s with
  | zero =>
    obtain rfl : s = t := Host.Outcome.next.inj ht
    exact hs
  | succ n ih =>
    cases hu : step s with
    | next u => exact ih (hstep s u hs hu) ((steps_succ hu n).symm.trans ht)
    | fault f => simp [steps, hu] at ht
    | refused r => simp [steps, hu] at ht

/-- A failed event is the last one of its request. -/
theorem FailureEnds.later_eq_nil {i : Instr} {pos : Pos} {s : State} (h : FailureEnds i pos s)
    {before later : List Event} {e : Event} (htrace : s.trace = before ++ e :: later) (he : e.failed = true) :
    later = [] := by
  by_contra hne
  have hmem : e ∈ s.trace.dropLast := by
    rw [htrace, List.dropLast_append_of_ne_nil (List.cons_ne_nil e later), List.dropLast_cons_of_ne_nil hne]
    simp
  simp [h.earlier e hmem] at he

theorem FailureEnds.trace_of_refused {i : Instr} {pos : Pos} {s : State} (h : FailureEnds i pos s)
    (hfits : RunFits i pos s) (hrefused : i.operandsInRange = false) : s.trace = [] :=
  hfits.startFits (h.refused hrefused)

/-! ### The transfers of a position and their addresses -/

/-- At every position the transfers performed begin the row, followed by polls of a wait (20_memory.md R65). -/
theorem RunFits.transfers_prefix {i : Instr} {pos : Pos} {s : State} (h : RunFits i pos s) :
    ∃ k, transfers s.trace <+: transfersWith i k := by
  cases pos with
  | start =>
    have hts : transfers s.trace = [] := h.transfersFit
    exact ⟨0, hts ▸ List.nil_prefix⟩
  | triggered =>
    obtain rfl : i = .singleShot := by simpa [PosFits] using h.posFits
    have hts : transfers s.trace = [.write 0x04 1] := h.transfersFit
    exact ⟨0, hts ▸ ⟨[.read 0x00 3], rfl⟩⟩
  | delayed =>
    have hts : transfers s.trace = if i = .singleShot then [.write 0x04 1] else [] := h.transfersFit
    rw [hts]
    split
    · next hi => exact ⟨0, hi ▸ ⟨[.read 0x00 3], rfl⟩⟩
    · exact ⟨0, List.nil_prefix⟩
  | commandRead b =>
    have hts : transfers s.trace = [.read 0x04 1] := h.transfersFit
    have hi : i = .heaterOn ∨ i = .heaterOff := by simpa [PosFits] using h.posFits
    obtain rfl | rfl := hi <;> exact ⟨0, hts ▸ ⟨[.write 0x04 1], rfl⟩⟩
  | waitEnter =>
    have hts : transfers s.trace = transferRow i := h.transfersFit
    exact ⟨0, hts ▸ List.prefix_append _ _⟩
  | waitPoll | waitClock | waitPause =>
    obtain ⟨k, hk⟩ := h.transfersFit
    exact ⟨k, hk ▸ List.prefix_refl _⟩
  | respond r =>
    obtain ⟨hprefix, -⟩ := h.transfersFit
    exact hprefix

/-- Every address that the transfer reaches is one of 20_memory.md R65. -/
def Transfer.inMap (x : Transfer) : Bool := x.addresses.all usedAddress

/-- The one byte of a user register in range (41_session.md R160, R161). -/
theorem usedAddress_user {index : Byte} (h : index.toNat ≤ 9) : usedAddress (0x0C + index) = true := by
  have hle : (0x0C + index).toNat ≤ 0x1E := by
    rw [BitVec.toNat_add, show (0x0C : Byte).toNat = 12 from rfl]
    omega
  rw [usedAddress, decide_eq_true hle, Bool.true_or]

theorem transferRow_inMap {i : Instr} (h : i.operandsInRange = true) :
    (transferRow i).all Transfer.inMap = true := by
  cases i with
  | readTemp wait checked => cases checked <;> rfl
  | readUserReg index | writeUserReg index =>
    have hused : usedAddress (0x0C + index) = true := usedAddress_user (of_decide_eq_true h)
    simpa [transferRow, Transfer.inMap, Transfer.addresses] using hused
  | _ => rfl

theorem transfersWith_inMap {i : Instr} (h : i.operandsInRange = true) (k : Nat) :
    ∀ x ∈ transfersWith i k, x.inMap = true := by
  intro x hx
  obtain hx | hx := List.mem_append.mp hx
  · exact List.all_eq_true.mp (transferRow_inMap h) x hx
  · rw [List.eq_of_mem_replicate hx]
    rfl

/-- A request that has performed a transfer had its operands accepted, so its row is within the map. -/
theorem RunFits.transfers_inMap {i : Instr} {pos : Pos} {s : State} (h : RunFits i pos s)
    (hends : FailureEnds i pos s) : ∀ x ∈ transfers s.trace, x.inMap = true := by
  intro x hx
  cases hrange : i.operandsInRange with
  | true =>
    obtain ⟨k, hk⟩ := h.transfers_prefix
    exact transfersWith_inMap hrange k x (hk.subset hx)
  | false =>
    rw [hends.trace_of_refused h hrange] at hx
    cases hx

/-- Settles O18, from the two invariants at the end of the run: the invariant of the sequencer for the row and its
order, and that a failure ends the request. -/
theorem transfersAreThoseOfTheTable : Obligations.TransfersAreThoseOfTheTable := by
  rintro n s t i hwf hs ht ⟨pos, hpos⟩
  have htrace : s.trace = [] := ((phaseFits_run hs).mp hwf.phaseFits).startFits rfl
  have hstart : NoneAfterFailure s := by
    intro j q hq
    obtain ⟨rfl, rfl⟩ := Phase.run.inj (hs.symm.trans hq)
    exact failureEnds_start htrace
  obtain ⟨hwf', hends⟩ : WellPhased t ∧ NoneAfterFailure t :=
    steps_keep (P := fun u => WellPhased u ∧ NoneAfterFailure u)
      (fun u v ⟨hwfu, hendsu⟩ hv =>
        ⟨stepKeepsTheSequencerInvariant u v hwfu hv, step_noneAfterFailure hwfu hendsu hv⟩)
      n ⟨hwf, hstart⟩ ht
  have hfits : RunFits i pos t := (phaseFits_run hpos).mp hwf'.phaseFits
  have hend : FailureEnds i pos t := hends i pos hpos
  exact ⟨hfits.transfers_prefix, fun x hx => List.all_eq_true.mp (hfits.transfers_inMap hend x hx),
    fun _ _ _ heq he => hend.later_eq_nil heq he, hend.trace_of_refused hfits⟩

end Sys2Proof.Machine
end

section
/-! SUPPORT. Proofs of the statements on the request word (30_encoding.md R80 to R83, R98). What a row of the opcode map
asks of a word is first said once, field by field: the opcode, and that no bit outside the operands is set. The
decoder, the encoder and the table of masks are each tied to it. -/

namespace Sys2Proof

/-! ### Bits of a field -/

/-- A field none of whose bits above the `n` used ones is set is its low part, extended by zeros. -/
theorem zero_append_extract_low {m n : Nat} {x : BitVec (m + n)}
    (h : x &&& ~~~(0#m ++ BitVec.allOnes n) = 0) : 0#m ++ x.extractLsb' 0 n = x := by
  have hhigh : x.extractLsb' n m = 0#m := by
    apply BitVec.eq_of_getLsbD_eq
    intro k hk
    have hbit : (x &&& ~~~(0#m ++ BitVec.allOnes n)).getLsbD (n + k) = false := by rw [h]; simp
    have hlt : n + k < m + n := by omega
    rw [BitVec.getLsbD_extractLsb']
    simpa only [BitVec.getLsbD_and, BitVec.getLsbD_not, BitVec.getLsbD_append, BitVec.getLsbD_zero, hk, hlt,
      Nat.not_lt.mpr (Nat.le_add_right n k), decide_true, decide_false, if_false, Bool.not_false, Bool.true_and,
      Bool.and_true] using hbit
  rw [← hhigh, BitVec.extractLsb'_append_extractLsb']

/-- A bit as a part of one bit, so that bits and parts are put together alike. -/
theorem ofBool_getLsbD {w : Nat} (x : BitVec w) (k : Nat) :
    BitVec.ofBool (x.getLsbD k) = x.extractLsb' k 1 := by
  apply BitVec.eq_of_getLsbD_eq
  intro i hi
  obtain rfl : i = 0 := by omega
  simp

/-- A word is put together again from its fields. -/
@[simp] theorem RequestFields.toWord_ofWord (w : Word64) : (RequestFields.ofWord w).toWord = w := by
  simp only [RequestFields.toWord, RequestFields.ofWord]
  rw [BitVec.extractLsb'_append_extractLsb'_eq_extractLsb' (by rfl),
    BitVec.extractLsb'_append_extractLsb'_eq_extractLsb' (by rfl),
    BitVec.extractLsb'_append_extractLsb'_eq_extractLsb' (by rfl)]
  exact BitVec.extractLsb'_append_extractLsb'

theorem RequestFields.toWord_inj {x y : RequestFields} : x.toWord = y.toWord ↔ x = y :=
  ⟨fun h => by rw [← ofWord_toWord x, h, ofWord_toWord], congrArg _⟩

/-! ### The operand fields read back -/

@[simp] theorem modeField_mode (mode : Mode) (heater : Bool) :
    Mode.ofCode ((modeField mode heater).extractLsb' 0 2) = mode := by
  cases mode <;> cases heater <;> rfl

@[simp] theorem modeField_heater (mode : Mode) (heater : Bool) : (modeField mode heater)[2] = heater := by
  cases mode <;> cases heater <;> rfl

theorem modeField_unused (mode : Mode) (heater : Bool) : modeField mode heater &&& ~~~0x07 = 0 := by
  cases mode <;> cases heater <;> rfl

@[simp] theorem configField_rate (rate : Rate) (avg : Avg) (sleep : Bool) :
    Rate.ofCode ((configField rate avg sleep).extractLsb' 0 3) = rate := by
  cases rate <;> cases avg <;> cases sleep <;> rfl

@[simp] theorem configField_avg (rate : Rate) (avg : Avg) (sleep : Bool) :
    Avg.ofCode ((configField rate avg sleep).extractLsb' 3 2) = avg := by
  cases rate <;> cases avg <;> cases sleep <;> rfl

@[simp] theorem configField_sleep (rate : Rate) (avg : Avg) (sleep : Bool) :
    (configField rate avg sleep)[5] = sleep := by
  cases rate <;> cases avg <;> cases sleep <;> rfl

theorem configField_unused (rate : Rate) (avg : Avg) (sleep : Bool) :
    configField rate avg sleep &&& ~~~0x3F = 0 := by
  cases rate <;> cases avg <;> cases sleep <;> rfl

@[simp] theorem twoFlags_first (flag0 flag1 : Bool) : (twoFlags flag0 flag1)[0] = flag0 := by
  cases flag0 <;> cases flag1 <;> rfl

@[simp] theorem twoFlags_second (flag0 flag1 : Bool) : (twoFlags flag0 flag1)[1] = flag1 := by
  cases flag0 <;> cases flag1 <;> rfl

theorem twoFlags_unused (flag0 flag1 : Bool) : twoFlags flag0 flag1 &&& ~~~0x03 = 0 := by
  cases flag0 <;> cases flag1 <;> rfl

theorem twoFlags_false_unused (flag : Bool) : twoFlags flag false &&& ~~~0x01 = 0 := by
  cases flag <;> rfl

@[simp] theorem zeroExtend8_byte (b : Byte) : (zeroExtend8 b).extractLsb' 0 8 = b := extract_low _ _

@[simp] theorem zeroExtend16_word (w : Word16) : (zeroExtend16 w).extractLsb' 0 16 = w := extract_low _ _

@[simp] theorem zeroExtend16_lsb (lsb msb : Byte) : (zeroExtend16 (msb ++ lsb)).extractLsb' 0 8 = lsb := by
  rw [zeroExtend16, BitVec.extractLsb'_append_eq_of_add_le (by decide), extract_low]

@[simp] theorem zeroExtend16_msb (lsb msb : Byte) : (zeroExtend16 (msb ++ lsb)).extractLsb' 8 8 = msb := by
  rw [zeroExtend16, BitVec.extractLsb'_append_eq_of_add_le (by decide), BitVec.extractLsb'_append_eq_left]

theorem zeroExtend8_unused (b : Byte) : zeroExtend8 b &&& ~~~0xFF = 0 :=
  Laws.EncodingSelectsRow.imm8 b

theorem zeroExtend16_unused (w : Word16) : zeroExtend16 w &&& ~~~0xFFFF = 0 :=
  Laws.EncodingSelectsRow.imm16 w

theorem none_unused {n : Nat} (used : BitVec n) : 0 &&& ~~~used = 0 := BitVec.zero_and

theorem byte_unused (b : Byte) : b &&& ~~~0xFF = 0 := BitVec.and_zero

theorem word_unused (w : Word32) : w &&& ~~~0xFFFFFFFF = 0 := BitVec.and_zero

/-! ### The operand fields written again -/

theorem none_read {n : Nat} {x : BitVec n} (h : x &&& ~~~0 = 0) : 0 = x := by
  simpa using h.symm

theorem modeField_read {f : Byte} (h : f &&& ~~~0x07 = 0) :
    modeField (Mode.ofCode (f.extractLsb' 0 2)) (f.getLsbD 2) = f := by
  rw [modeField, Mode.code_ofCode, ofBool_getLsbD, BitVec.extractLsb'_append_extractLsb'_eq_extractLsb' (by rfl)]
  exact zero_append_extract_low (m := 5) (n := 3) h

theorem configField_read {f : Byte} (h : f &&& ~~~0x3F = 0) :
    configField (Rate.ofCode (f.extractLsb' 0 3)) (Avg.ofCode (f.extractLsb' 3 2)) (f.getLsbD 5) = f := by
  rw [configField, Rate.code_ofCode, Avg.code_ofCode,
    BitVec.extractLsb'_append_extractLsb'_eq_extractLsb' (by rfl), ofBool_getLsbD,
    BitVec.extractLsb'_append_extractLsb'_eq_extractLsb' (by rfl)]
  exact zero_append_extract_low (m := 2) (n := 6) h

theorem twoFlags_read {f : Byte} (h : f &&& ~~~0x03 = 0) : twoFlags (f.getLsbD 0) (f.getLsbD 1) = f := by
  rw [twoFlags, ofBool_getLsbD, ofBool_getLsbD, BitVec.extractLsb'_append_extractLsb'_eq_extractLsb' (by rfl)]
  exact zero_append_extract_low (m := 6) (n := 2) h

theorem alertField_read {f : Byte} (h : f &&& ~~~0x03 = 0) :
    alertField (f.getLsbD 0) (AlertMode.ofBit (f.getLsbD 1)) = f := by
  rw [alertField, AlertMode.bit_ofBit, twoFlags_read h]

theorem twoFlags_false_read {f : Byte} (h : f &&& ~~~0x01 = 0) : twoFlags (f.getLsbD 0) false = f := by
  revert f; decide

theorem zeroExtend8_read {imm : Word32} (h : imm &&& ~~~0xFF = 0) :
    zeroExtend8 (imm.extractLsb' 0 8) = imm :=
  zero_append_extract_low (m := 24) (n := 8) h

theorem zeroExtend16_read {imm : Word32} (h : imm &&& ~~~0xFFFF = 0) :
    zeroExtend16 (imm.extractLsb' 0 16) = imm :=
  zero_append_extract_low (m := 16) (n := 16) h

theorem zeroExtend16_append_read {imm : Word32} (h : imm &&& ~~~0xFFFF = 0) :
    zeroExtend16 (imm.extractLsb' 8 8 ++ imm.extractLsb' 0 8) = imm := by
  rw [BitVec.extractLsb'_append_extractLsb'_eq_extractLsb' (by rfl)]
  exact zeroExtend16_read h

/-! ### What a row asks of a word -/

/-- The bits of `F`, `D` and `IMM` that the operands of a request use; no bit of `OPC` and of `RSV`
(30_encoding.md R98). -/
def Instr.operandBits : Instr → RequestFields
  | .encCmd _ _ | .setMode _ _ => ⟨0, 0x07, 0, 0, 0⟩
  | .encCfg _ _ _ | .configure _ _ _ => ⟨0, 0x3F, 0, 0, 0⟩
  | .encAlert _ _ | .setAlertMode _ _ | .readTemp _ _ => ⟨0, 0x03, 0, 0, 0⟩
  | .setParasitic _ => ⟨0, 0x01, 0, 0, 0⟩
  | .decCmd _ | .decCfg _ | .decStatus _ | .decAlert _ | .readUserReg _ => ⟨0, 0, 0xFF, 0, 0⟩
  | .crc8Upd _ _ | .writeUserReg _ _ => ⟨0, 0, 0xFF, 0, 0xFF⟩
  | .decRaw _ _ | .rawToC _ => ⟨0, 0, 0, 0, 0xFFFF⟩
  | .cToRaw _ | .setHighLimit _ | .setLowLimit _ | .waitConversion _ | .waitEeprom _ => ⟨0, 0, 0, 0, 0xFFFFFFFF⟩
  | .eeCopyPage _ _ | .eeRecallPage _ _ | .eeFullRecall _ _ | .eeSoftReset _ _ => ⟨0, 0x01, 0, 0, 0xFFFFFFFF⟩
  | .singleShot | .readStatus | .isBusy | .heaterOn | .heaterOff | .getAlertMode | .getHighLimit | .getLowLimit
  | .readDeviceId | .readRomCode | .readScratch | .readScratchExt | .lastError => ⟨0, 0, 0, 0, 0⟩

/-- The request of the same row with the operands that the fields hold (30_encoding.md R98). -/
def Instr.withOperands (x : RequestFields) : Instr → Instr
  | .encCmd _ _ => .encCmd x.mode (x.f.getLsbD 2)
  | .decCmd _ => .decCmd x.d
  | .encCfg _ _ _ => .encCfg x.rate x.avg (x.f.getLsbD 5)
  | .decCfg _ => .decCfg x.d
  | .decStatus _ => .decStatus x.d
  | .encAlert _ _ => .encAlert (x.f.getLsbD 0) x.alertMode
  | .decAlert _ => .decAlert x.d
  | .decRaw _ _ => .decRaw x.imm0 (x.imm.extractLsb' 8 8)
  | .rawToC _ => .rawToC (x.imm.extractLsb' 0 16)
  | .cToRaw _ => .cToRaw x.imm
  | .crc8Upd _ _ => .crc8Upd x.imm0 x.d
  | .configure _ _ _ => .configure x.rate x.avg (x.f.getLsbD 5)
  | .setMode _ _ => .setMode x.mode (x.f.getLsbD 2)
  | .readTemp _ _ => .readTemp (x.f.getLsbD 0) (x.f.getLsbD 1)
  | .setAlertMode _ _ => .setAlertMode (x.f.getLsbD 0) x.alertMode
  | .setHighLimit _ => .setHighLimit x.imm
  | .setLowLimit _ => .setLowLimit x.imm
  | .readUserReg _ => .readUserReg x.d
  | .writeUserReg _ _ => .writeUserReg x.d x.imm0
  | .setParasitic _ => .setParasitic (x.f.getLsbD 0)
  | .eeCopyPage _ _ => .eeCopyPage (x.f.getLsbD 0) x.imm
  | .eeRecallPage _ _ => .eeRecallPage (x.f.getLsbD 0) x.imm
  | .eeFullRecall _ _ => .eeFullRecall (x.f.getLsbD 0) x.imm
  | .eeSoftReset _ _ => .eeSoftReset (x.f.getLsbD 0) x.imm
  | .waitConversion _ => .waitConversion x.imm
  | .waitEeprom _ => .waitEeprom x.imm
  | other => other

/-- The fields `x` are those of a legal word of the row of `i`: its opcode, and no bit set that no operand uses
(30_encoding.md R82). -/
structure RequestFields.Fits (x : RequestFields) (i : Instr) : Prop where
  opc : x.opc = i.opcode
  f : x.f &&& ~~~i.operandBits.f = 0
  d : x.d &&& ~~~i.operandBits.d = 0
  imm : x.imm &&& ~~~i.operandBits.imm = 0
  rsv : x.rsv = 0

@[simp] theorem Instr.row_withOperands (x : RequestFields) (i : Instr) : (i.withOperands x).row = i.row := by
  cases i <;> rfl

/-! ### The encoder -/

/-- The encoder sets no bit outside the operands. -/
theorem Instr.fields_fits (i : Instr) : i.fields.Fits i := by
  cases i with
  | encCmd mode heater | setMode mode heater =>
    exact ⟨rfl, modeField_unused mode heater, none_unused _, none_unused _, rfl⟩
  | encCfg rate avg sleep | configure rate avg sleep =>
    exact ⟨rfl, configField_unused rate avg sleep, none_unused _, none_unused _, rfl⟩
  | encAlert enabled mode | setAlertMode enabled mode =>
    exact ⟨rfl, twoFlags_unused enabled mode.bit, none_unused _, none_unused _, rfl⟩
  | readTemp wait verify => exact ⟨rfl, twoFlags_unused wait verify, none_unused _, none_unused _, rfl⟩
  | setParasitic enabled => exact ⟨rfl, twoFlags_false_unused enabled, none_unused _, none_unused _, rfl⟩
  | decCmd b | decCfg b | decStatus b | decAlert b | readUserReg b =>
    exact ⟨rfl, none_unused _, byte_unused b, none_unused _, rfl⟩
  | crc8Upd low d | writeUserReg d low => exact ⟨rfl, none_unused _, byte_unused d, zeroExtend8_unused low, rfl⟩
  | decRaw lsb msb => exact ⟨rfl, none_unused _, none_unused _, zeroExtend16_unused (msb ++ lsb), rfl⟩
  | rawToC raw => exact ⟨rfl, none_unused _, none_unused _, zeroExtend16_unused raw, rfl⟩
  | cToRaw w | setHighLimit w | setLowLimit w | waitConversion w | waitEeprom w =>
    exact ⟨rfl, none_unused _, none_unused _, word_unused w, rfl⟩
  | eeCopyPage wait w | eeRecallPage wait w | eeFullRecall wait w | eeSoftReset wait w =>
    exact ⟨rfl, twoFlags_false_unused wait, none_unused _, word_unused w, rfl⟩
  | _ => exact ⟨rfl, none_unused _, none_unused _, none_unused _, rfl⟩

/-- The operands that the encoder writes are read back. -/
@[simp] theorem Instr.withOperands_fields (i : Instr) : i.withOperands i.fields = i := by
  cases i <;>
    simp [Instr.fields, Instr.withOperands, RequestFields.mode, RequestFields.rate, RequestFields.avg,
      RequestFields.alertMode, RequestFields.imm0, alertField]

/-- Fields `y` of the opcode of `i`, with no reserved bit set, are the fitting fields `x` when they agree with them in
`F`, `D` and `IMM`. -/
theorem RequestFields.Fits.eq_of_fields {x y : RequestFields} {i : Instr} (h : x.Fits i) (hopc : y.opc = i.opcode)
    (hf : y.f = x.f) (hd : y.d = x.d) (himm : y.imm = x.imm) (hrsv : y.rsv = 0) : y = x := by
  have hopc' : y.opc = x.opc := hopc.trans h.opc.symm
  have hrsv' : y.rsv = x.rsv := hrsv.trans h.rsv.symm
  cases x; cases y
  simp_all

/-- The operands that fitting fields hold are written back to the same fields: no bit is dropped. -/
theorem RequestFields.Fits.fields_withOperands {x : RequestFields} {i : Instr} (h : x.Fits i) :
    (i.withOperands x).fields = x := by
  have ⟨_, hf, hd, himm, _⟩ := h
  cases i with
  | encCmd | setMode =>
    exact h.eq_of_fields rfl (modeField_read hf) (none_read hd) (none_read himm) rfl
  | encCfg | configure =>
    exact h.eq_of_fields rfl (configField_read hf) (none_read hd) (none_read himm) rfl
  | encAlert | setAlertMode =>
    exact h.eq_of_fields rfl (alertField_read hf) (none_read hd) (none_read himm) rfl
  | readTemp =>
    exact h.eq_of_fields rfl (twoFlags_read hf) (none_read hd) (none_read himm) rfl
  | setParasitic =>
    exact h.eq_of_fields rfl (twoFlags_false_read hf) (none_read hd) (none_read himm) rfl
  | decCmd | decCfg | decStatus | decAlert | readUserReg =>
    exact h.eq_of_fields rfl (none_read hf) rfl (none_read himm) rfl
  | crc8Upd | writeUserReg =>
    exact h.eq_of_fields rfl (none_read hf) rfl (zeroExtend8_read himm) rfl
  | decRaw =>
    exact h.eq_of_fields rfl (none_read hf) (none_read hd) (zeroExtend16_append_read himm) rfl
  | rawToC =>
    exact h.eq_of_fields rfl (none_read hf) (none_read hd) (zeroExtend16_read himm) rfl
  | cToRaw | setHighLimit | setLowLimit | waitConversion | waitEeprom =>
    exact h.eq_of_fields rfl (none_read hf) (none_read hd) rfl rfl
  | eeCopyPage | eeRecallPage | eeFullRecall | eeSoftReset =>
    exact h.eq_of_fields rfl (twoFlags_false_read hf) (none_read hd) rfl rfl
  | _ =>
    exact h.eq_of_fields rfl (none_read hf) (none_read hd) (none_read himm) rfl

/-! ### The decoder -/

/-- The decoder at the opcode of `i` reads the operands of `i` and checks the bits that they do not use. -/
theorem RequestFields.decode_of_opcode {x : RequestFields} {i : Instr} (h : x.opc = i.opcode) :
    x.decode = x.using i.operandBits.f i.operandBits.d i.operandBits.imm (i.withOperands x) := by
  obtain ⟨opc, f, d, rsv, imm⟩ := x
  obtain rfl : opc = i.opcode := h
  cases i <;> rfl

theorem RequestFields.Fits.decode_eq {x : RequestFields} {i : Instr} (h : x.Fits i) :
    x.decode = some (i.withOperands x) := by
  rw [decode_of_opcode h.opc]
  exact if_pos ⟨h.f, h.d, h.imm, h.rsv⟩

/-- The check of an arm of the decoder answers the arm's request, and says that the fields fit it. -/
theorem RequestFields.fits_of_using {x : RequestFields} {fUsed dUsed : Byte} {immUsed : Word32} {i j : Instr}
    (h : x.using fUsed dUsed immUsed i = some j) (hopc : x.opc.toNat = i.opcode.toNat)
    (hf : i.operandBits.f = fUsed) (hd : i.operandBits.d = dUsed) (himm : i.operandBits.imm = immUsed) :
    x.Fits j := by
  unfold RequestFields.using at h
  split at h
  · next hbits =>
    obtain ⟨hxf, hxd, hximm, hrsv⟩ := hbits
    obtain rfl : i = j := Option.some.inj h
    exact ⟨BitVec.eq_of_toNat_eq hopc, hf ▸ hxf, hd ▸ hxd, himm ▸ hximm, hrsv⟩
  · cases h

theorem RequestFields.fits_of_decode {x : RequestFields} {i : Instr} (h : x.decode = some i) : x.Fits i := by
  unfold RequestFields.decode at h
  split at h
  -- the last arm: an unassigned opcode
  case h_40 => cases h
  all_goals
    next hopc => exact fits_of_using h hopc rfl rfl rfl

/-! ### The table of masks and matches -/

theorem Instr.row_mask (i : Instr) :
    i.row.mask = RequestFields.toWord
      ⟨0xFF, ~~~i.operandBits.f, ~~~i.operandBits.d, 0xFF, ~~~i.operandBits.imm⟩ := by
  cases i <;> simp only [Instr.row, Instr.operandBits] <;> decide

theorem Instr.row_pattern (i : Instr) : i.row.pattern = RequestFields.toWord ⟨i.opcode, 0, 0, 0, 0⟩ := by
  cases i <;> simp only [Instr.row, Instr.opcode, Instr.fields] <;> decide

/-- The row of `i` selects a word exactly when the word's fields fit `i` (30_encoding.md R82). -/
theorem Instr.row_selects_iff {w : Word64} {i : Instr} :
    w &&& i.row.mask = i.row.pattern ↔ (RequestFields.ofWord w).Fits i := by
  have hbyte : ∀ b : Byte, b &&& 0xFF = b := fun b => BitVec.and_allOnes
  rw [i.row_mask, i.row_pattern, ← RequestFields.toWord_ofWord w, Laws.EncodingSelectsRow.mask_fields,
    RequestFields.toWord_inj, RequestFields.ofWord_toWord, RequestFields.mk.injEq, hbyte, hbyte]
  exact ⟨fun ⟨hopc, hf, hd, hrsv, himm⟩ => ⟨hopc, hf, hd, himm, hrsv⟩,
    fun ⟨hopc, hf, hd, himm, hrsv⟩ => ⟨hopc, hf, hd, hrsv, himm⟩⟩

/-- Every request has its row in the table: that of its representative, the request with all operands zero. -/
theorem Instr.row_mem_opcodeRows (i : Instr) : i.row ∈ opcodeRows := by
  have hmem : i.withOperands ⟨0, 0, 0, 0, 0⟩ ∈ Instr.representatives := by
    cases i <;> simp only [Instr.withOperands] <;> decide
  rw [← i.row_withOperands ⟨0, 0, 0, 0, 0⟩]
  exact List.mem_map_of_mem hmem

theorem exists_row_of_mem_opcodeRows {r : OpcodeRow} (h : r ∈ opcodeRows) : ∃ i : Instr, i.row = r := by
  obtain ⟨i, -, hi⟩ := List.mem_map.mp h
  exact ⟨i, hi⟩

/-- Rows of requests with different opcodes select no common word. -/
theorem Instr.rows_disjoint {i j : Instr} (h : i.opcode ≠ j.opcode) (w : Word64) :
    ¬ (w &&& i.row.mask = i.row.pattern ∧ w &&& j.row.mask = j.row.pattern) := by
  rintro ⟨hi, hj⟩
  exact h ((row_selects_iff.mp hi).opc.symm.trans (row_selects_iff.mp hj).opc)

/-! ### Encoding and decoding -/

/-- Settles O1: the encoded fields fit the request, so the decoder reads their operands, which are the request's. -/
theorem decodeOfEncodeIsTheRequest : Obligations.DecodeOfEncodeIsTheRequest := by
  intro i
  calc decode (encode i)
    _ = i.fields.decode := congrArg RequestFields.decode (RequestFields.ofWord_toWord i.fields)
    _ = some (i.withOperands i.fields) := i.fields_fits.decode_eq
    _ = some i := congrArg some i.withOperands_fields

/-- Settles O2: decoded fields fit the request, so the operands read from them are written back to the same fields. -/
theorem encodeOfDecodeIsTheWord : Obligations.EncodeOfDecodeIsTheWord := by
  intro w i h
  have hfits : (RequestFields.ofWord w).Fits i := RequestFields.fits_of_decode h
  have hread : i.withOperands (RequestFields.ofWord w) = i := Option.some.inj (hfits.decode_eq.symm.trans h)
  have hfields : i.fields = RequestFields.ofWord w := by
    simpa only [hread] using hfits.fields_withOperands
  rw [encode, hfields, RequestFields.toWord_ofWord]

/-- A row selects a word exactly when the word decodes to a request of the row (30_encoding.md R82). -/
theorem selects_iff_decode {w : Word64} {r : OpcodeRow} (hr : r ∈ opcodeRows) :
    w &&& r.mask = r.pattern ↔ ∃ i, decode w = some i ∧ i.row = r := by
  constructor
  · intro h
    obtain ⟨i, rfl⟩ := exists_row_of_mem_opcodeRows hr
    exact ⟨_, (Instr.row_selects_iff.mp h).decode_eq, i.row_withOperands _⟩
  · rintro ⟨i, hdec, rfl⟩
    exact Instr.row_selects_iff.mpr (RequestFields.fits_of_decode hdec)

/-- A word is illegal exactly when no row selects it (30_encoding.md R83). -/
theorem decode_eq_none_iff {w : Word64} : decode w = none ↔ ∀ r ∈ opcodeRows, w &&& r.mask ≠ r.pattern := by
  constructor
  · intro hnone r hr hsel
    obtain ⟨i, hdec, -⟩ := (selects_iff_decode hr).mp hsel
    simp [hnone] at hdec
  · intro hsel
    by_contra hsome
    obtain ⟨i, hdec⟩ := Option.ne_none_iff_exists'.mp hsome
    exact hsel i.row i.row_mem_opcodeRows ((selects_iff_decode i.row_mem_opcodeRows).mpr ⟨i, hdec, rfl⟩)

/-- Settles O3: selection, illegality, and the opcodes of the rows, which are pairwise distinct. -/
theorem decoderFollowsTheOpcodeMap : Obligations.DecoderFollowsTheOpcodeMap := by
  refine ⟨fun w r hr => selects_iff_decode hr, fun w => decode_eq_none_iff, ?_⟩
  have hopcodes : Instr.representatives.Pairwise (fun i j => i.opcode ≠ j.opcode) := by decide
  exact List.pairwise_map.mpr (hopcodes.imp Instr.rows_disjoint)

/-- Settles O4: each word is the encoding of its request, and bit 24 is reserved. -/
theorem writtenWordsDecode : Obligations.WrittenWordsDecode := by
  have hdec : ∀ {w : Word64} (i : Instr), encode i = w → decode w = some i :=
    fun i h => h ▸ decodeOfEncodeIsTheRequest i
  exact ⟨hdec _ rfl, hdec _ rfl, hdec _ rfl, hdec _ rfl, hdec _ rfl, hdec _ rfl, rfl⟩

theorem legalWord_encode (i : Instr) : legalWord (encode i) = true := by
  have hsel : encode i &&& i.row.mask = i.row.pattern :=
    (selects_iff_decode i.row_mem_opcodeRows).mpr ⟨i, decodeOfEncodeIsTheRequest i, rfl⟩
  exact List.any_eq_true.mpr ⟨i.row, i.row_mem_opcodeRows, beq_iff_eq.mpr hsel⟩

end Sys2Proof
end

section
/-! SUPPORT. Proofs of the statements on the assembler, on illegal words and on the packed response (30_encoding.md R83,
R84, R100, R101; 40_codec.md R132). -/

namespace Sys2Proof.Machine

/-! ### The assembler -/

/-- Settles O5: the assembler writes encodings of requests only. -/
theorem assembledWordsAreLegal : Obligations.AssembledWordsAreLegal := by
  intro line ws h w hw
  obtain ⟨is, -, rfl⟩ := Option.map_eq_some_iff.mp h
  obtain ⟨i, -, rfl⟩ := List.mem_map.mp hw
  exact legalWord_encode i

theorem crc8RequestsFrom_length (acc : Byte) (bs : List Byte) : (crc8RequestsFrom acc bs).length = bs.length := by
  induction bs generalizing acc with
  | nil => rfl
  | cons b bs ih => simp [crc8RequestsFrom, ih]

/-- Request `k` starts from the checksum that the first `k` bytes give from `acc` on. -/
theorem crc8RequestsFrom_getElem? {bs : List Byte} {k : Nat} {b : Byte} (acc : Byte) (h : bs[k]? = some b) :
    (crc8RequestsFrom acc bs)[k]? = some (.crc8Upd ((bs.take k).foldl crc8Update acc) b) := by
  induction bs generalizing acc k with
  | nil => cases h
  | cons c bs ih =>
    cases k with
    | zero =>
      obtain rfl : c = b := by simpa using h
      rfl
    | succ k => exact ih (crc8Update acc c) h

/-- The checksum of one byte more (40_codec.md R132). -/
theorem crc8_take_succ {bs : List Byte} {k : Nat} {b : Byte} (h : bs[k]? = some b) :
    crc8 (bs.take (k + 1)) = crc8Update (crc8 (bs.take k)) b := by
  simp only [crc8, List.take_add_one, h, Option.toList_some, List.foldl_append, List.foldl_cons, List.foldl_nil]

/-- Settles O6, from the requests of any start accumulator. -/
theorem crc8PseudoInstructionChainsAccumulators : Obligations.Crc8PseudoInstructionChainsAccumulators :=
  fun bs => ⟨crc8RequestsFrom_length 0 bs,
    fun _ _ hb => ⟨crc8RequestsFrom_getElem? 0 hb, (crc8_take_succ hb).symm⟩⟩

/-! ### Illegal words -/

/-- Settles O9: the word is accepted as illegal, and the next step emits the response. -/
theorem illegalWordIsParameterError : Obligations.IllegalWordIsParameterError := by
  intro s w ws hidle hreq hillegal
  have haccept : step s = .next (s.acceptIllegal w) := step_illegal hidle hreq (decode_eq_none_iff.mpr hillegal)
  have hemit : step (s.acceptIllegal w) = .next ((s.acceptIllegal w).emit illegalResponse) :=
    step_runIllegal (s.acceptIllegal_phase w)
  simp only [steps, haccept, hemit]
  rw [State.acceptIllegal, State.accept, hreq]
  rfl

/-! ### The packed response -/

/-- The byte `k` of the data, 0 beyond them, stands at bit `48 + 8k`. -/
theorem Response.pack_data (r : Response) {k : Nat} (hk : k < 10) :
    r.pack.extractLsb' (48 + 8 * k) 8 = byteAt r.data k := by
  unfold Response.pack
  interval_cases k
  all_goals
    simp (disch := decide) only [BitVec.extractLsb'_append_eq_of_le, BitVec.extractLsb'_append_eq_of_add_le]
    exact BitVec.extractLsb'_eq_self

/-- The fields below the data, and the gaps between them, stand at their places. -/
theorem Response.pack_header (r : Response) :
    r.pack.extractLsb' 0 3 = r.status.code ∧ r.pack.extractLsb' 3 2 = r.chk.code ∧
      r.pack.extractLsb' 5 1 = BitVec.ofBool r.valid ∧ r.pack.extractLsb' 6 2 = 0#2 ∧
      r.pack.extractLsb' 8 4 = r.len ∧ r.pack.extractLsb' 12 4 = 0#4 ∧ r.pack.extractLsb' 16 32 = r.value := by
  unfold Response.pack
  refine ⟨?_, ?_, ?_, ?_, ?_, ?_, ?_⟩
  all_goals
    simp (disch := decide) only [BitVec.extractLsb'_append_eq_of_le, BitVec.extractLsb'_append_eq_of_add_le]
    exact BitVec.extractLsb'_eq_self

/-- `len` has room for the ten bytes that a well-formed response can hold. -/
theorem Response.len_toNat {r : Response} (h : r.wellFormed = true) : r.len.toNat = r.data.length := by
  have hlen : r.data.length ≤ 10 := by
    simp only [Response.wellFormed, Bool.and_eq_true, decide_eq_true_eq] at h
    obtain ⟨⟨hlen, -⟩, -⟩ := h
    exact hlen
  exact Nat.mod_eq_of_lt (by omega)

/-- Settles O36: each field is cut out of the concatenation at its place. -/
theorem packedResponseLayout : Obligations.PackedResponseLayout := by
  intro r hwf
  obtain ⟨hstatus, hchk, hvalid, hgap6, hlen, hgap12, hvalue⟩ := r.pack_header
  have hbit : r.pack.getLsbD 5 = r.valid := by
    simpa using congrArg (BitVec.getLsbD · 0) hvalid
  have hlength : (r.pack.extractLsb' 8 4).toNat = r.data.length := by rw [hlen, Response.len_toNat hwf]
  exact ⟨hstatus, hchk, hbit, hgap6, hlength, hgap12, hvalue, fun k hk => r.pack_data hk⟩

end Sys2Proof.Machine
end

section
/-! SUPPORT. Proofs of the statements on the register encoders and decoders and on the requests that run them
(40_codec.md R110 to R126, R135). Each byte is first written as the concatenation of its fields; its number and what a
decoder cuts out of it are read off that layout. -/

namespace Sys2Proof.Machine

/-! ### The response of a codec request -/

/-- Emitting a value changes nothing but the response: LAST_ERROR is kept (60_exceptions.md R222). -/
theorem emit_result {i : Instr} {pos : Pos} {s : State} (hs : s.phase = .run i pos) (hi : i ≠ .lastError)
    (v : Word32) : s.emit (.result v) = responded s (okResponse v [] .notChecked) := by
  rw [State.emit, hs, Phase.nextLastError_run i pos _ _ hi]
  rfl

/-- Emitting a failure changes the response and LAST_ERROR, which takes its status (60_exceptions.md R222). -/
theorem emit_failed {i : Instr} {pos : Pos} {s : State} {e : Status} (hs : s.phase = .run i pos)
    (hi : i ≠ .lastError) (he : e ≠ .ok) :
    s.emit (.failed e) = { responded s (errorResponse e) with lastError := e } := by
  have hclassify : (Response.failed e).classify s.lastError = e := if_pos he
  rw [State.emit, hs, Phase.nextLastError_run i pos _ _ hi, hclassify]
  rfl

/-- A request that answers at once emits its response in its first step (40_codec.md R110). -/
theorem perform_respondNow {i : Instr} {s : State} (hs : s.phase = .run i .start) (r : Response) :
    perform i (atStart (respondNow r)) s = .next (s.emit r) :=
  perform_body hs nofun

/-- A request that answers a value at once changes nothing but the response (40_codec.md R110). -/
theorem perform_result {i : Instr} {s : State} (hs : s.phase = .run i .start) (hi : i ≠ .lastError) {v w : Word32}
    (hv : v = w) :
    perform i (atStart (respondNow (.result v))) s = .next (responded s (okResponse w [] .notChecked)) := by
  rw [perform_respondNow hs, emit_result hs hi, hv]

/-! ### Numbers of fields -/

theorem zext32_eq_ofNat (b : Byte) : zext32 b = BitVec.ofNat 32 b.toNat := (BitVec.ofNat_toNat 32 b).symm

theorem toNat_append_eq_add {m n : Nat} (x : BitVec m) (y : BitVec n) :
    (x ++ y).toNat = x.toNat * 2 ^ n + y.toNat := by
  rw [BitVec.toNat_append, ← Nat.shiftLeft_add_eq_or_of_lt y.isLt, Nat.shiftLeft_eq]

theorem extractLsb'_toNat_eq_div {n : Nat} (x : BitVec n) (k w : Nat) :
    (x.extractLsb' k w).toNat = x.toNat / 2 ^ k % 2 ^ w := by
  rw [BitVec.extractLsb'_toNat, Nat.shiftRight_eq_div_pow]

theorem ofBool_getLsbD_toNat (b : Byte) (k : Nat) : (b.getLsbD k).toNat = b.toNat / 2 ^ k % 2 := by
  rw [← BitVec.toNat_ofBool, ofBool_getLsbD, extractLsb'_toNat_eq_div, Nat.pow_one]

/-! ### Layouts: COMMAND, CONFIG, STATUS and ALERT_MODE -/

/-- The heater nibble a flag stands for (30_encoding.md R89). -/
def heaterNibble (heater : Bool) : BitVec 4 := if heater then 0b1010 else 0b0000

theorem encodeCommand_eq_append (mode : BitVec 2) (heater : Bool) :
    encodeCommand mode heater = mode ++ (0#2 ++ heaterNibble heater) := by
  revert mode heater; decide

theorem encodeConfig_eq_append (rate : BitVec 3) (avg : BitVec 2) (sleep : Bool) :
    encodeConfig rate avg sleep = rate ++ (avg ++ (0#2 ++ BitVec.ofBool sleep)) := by
  revert rate avg sleep; decide

theorem encodeAlert_eq_append (p : Params) (enabled mode : Bool) :
    encodeAlert p enabled mode = levelFor enabled p.alertEnLevel ++ (levelFor mode p.alertHalaLevel ++ 0#6) := by
  have hlayout (e h : BitVec 1) : (e.setWidth 8 <<< 7) ||| (h.setWidth 8 <<< 6) = e ++ (h ++ 0#6) := by
    revert e h; decide
  exact hlayout _ _

theorem decCmdValue_eq_append (b : Byte) :
    decCmdValue b = 0#5 ++ (BitVec.ofBool (b.extractLsb' 0 4 == 0b1010) ++ b.extractLsb' 6 2) := by
  have hlayout (h : Bool) (m : BitVec 2) : m.setWidth 8 ||| (bit8 h <<< 2) = 0#5 ++ (BitVec.ofBool h ++ m) := by
    revert h m; decide
  exact hlayout _ _

theorem decCfgValue_eq_append (b : Byte) :
    decCfgValue b = 0#2 ++ (BitVec.ofBool (b.getLsbD 0) ++ (b.extractLsb' 3 2 ++ b.extractLsb' 5 3)) := by
  have hlayout (s : Bool) (a : BitVec 2) (r : BitVec 3) :
      r.setWidth 8 ||| (a.setWidth 8 <<< 3) ||| (bit8 s <<< 5) = 0#2 ++ (BitVec.ofBool s ++ (a ++ r)) := by
    revert s a r; decide
  exact hlayout _ _ _

theorem alertValue_eq_append (e m : Bool) : alertValue (e, m) = 0#6 ++ (BitVec.ofBool m ++ BitVec.ofBool e) := by
  cases e <;> cases m <;> rfl

theorem snapshotByte_eq_append (b : Byte) : snapshotByte b = b.extractLsb' 2 6 ++ 0#2 := by
  refine BitVec.eq_of_getLsbD_eq fun k hk => ?_
  rw [show (b.extractLsb' 2 6 ++ 0#2).getLsbD k = _ from BitVec.getLsbD_append, snapshotByte, BitVec.getLsbD_and]
  interval_cases k <;> simp

/-- A status byte is its six flags above bits 1:0 (40_codec.md R119). -/
theorem eq_append_decodeStatus (b : Byte) :
    b = BitVec.ofBool (decodeStatus b).alertHigh ++ (BitVec.ofBool (decodeStatus b).alertLow ++
      (BitVec.ofBool (decodeStatus b).busy ++ (BitVec.ofBool (decodeStatus b).eeBusy ++
        (BitVec.ofBool (decodeStatus b).heaterOn ++ (BitVec.ofBool (decodeStatus b).thMisconf ++
          b.extractLsb' 0 2))))) := by
  simp only [decodeStatus, ofBool_getLsbD]
  simp (disch := rfl) only [BitVec.extractLsb'_append_extractLsb'_eq_extractLsb']
  exact BitVec.extractLsb'_eq_self.symm

/-- A snapshot keeps the six flags. -/
@[simp] theorem decodeStatus_snapshotByte (b : Byte) : decodeStatus (snapshotByte b) = decodeStatus b := by
  simp [decodeStatus, snapshotByte]

/-! ### ENC_CMD and DEC_CMD -/

theorem encodeCommand_toNat (mode : BitVec 2) (heater : Bool) :
    (encodeCommand mode heater).toNat = 64 * mode.toNat + if heater then 10 else 0 := by
  rw [encodeCommand_eq_append, toNat_append_eq_add, toNat_append_eq_add]
  cases heater <;> simp [heaterNibble] <;> omega

theorem decCmdValue_toNat (b : Byte) :
    (decCmdValue b).toNat = b.toNat / 64 + if b.toNat % 16 = 10 then 4 else 0 := by
  have hnibble : b.extractLsb' 0 4 = 0b1010 ↔ b.toNat % 16 = 10 := by
    rw [← BitVec.toNat_inj, extractLsb'_toNat_eq_div]
    simp
  have hlt := b.isLt
  simp only [decCmdValue_eq_append, toNat_append_eq_add, extractLsb'_toNat_eq_div, BitVec.toNat_ofBool,
    beq_eq_decide, hnibble]
  split <;> simp [*] <;> omega

/-- Settles O23: the number of each byte is read off its layout. -/
theorem commandCodecRequests : Obligations.CommandCodecRequests :=
  ⟨fun _ mode heat hs => perform_result hs nofun (by rw [zext32_eq_ofNat, encodeCommand_toNat]),
    fun _ byte hs => perform_result hs nofun (by rw [zext32_eq_ofNat, decCmdValue_toNat])⟩

/-! ### ENC_CFG and DEC_CFG -/

theorem encodeConfig_toNat (rate : BitVec 3) (avg : BitVec 2) (sleep : Bool) :
    (encodeConfig rate avg sleep).toNat = 32 * rate.toNat + 8 * avg.toNat + sleep.toNat := by
  simp only [encodeConfig_eq_append, toNat_append_eq_add, BitVec.toNat_ofBool, BitVec.toNat_ofNat]
  omega

theorem decCfgValue_toNat (b : Byte) :
    (decCfgValue b).toNat = b.toNat / 32 + 8 * (b.toNat / 8 % 4) + 32 * (b.toNat % 2) := by
  have hlt := b.isLt
  simp only [decCfgValue_eq_append, toNat_append_eq_add, extractLsb'_toNat_eq_div, BitVec.toNat_ofBool,
    ofBool_getLsbD_toNat, BitVec.toNat_ofNat]
  omega

/-- Settles O24: the number of each byte is read off its layout. -/
theorem configCodecRequests : Obligations.ConfigCodecRequests :=
  ⟨fun _ rate avg slp hs => perform_result hs nofun (by rw [zext32_eq_ofNat, encodeConfig_toNat]),
    fun _ byte hs => perform_result hs nofun (by rw [zext32_eq_ofNat, decCfgValue_toNat])⟩

/-! ### DEC_STATUS and DEC_RAW -/

theorem snapshotByte_toNat (b : Byte) : (snapshotByte b).toNat = 4 * (b.toNat / 4) := by
  have hlt := b.isLt
  simp only [snapshotByte_eq_append, toNat_append_eq_add, extractLsb'_toNat_eq_div, BitVec.toNat_ofNat]
  omega

/-- The sign of a little-endian pair is bit 7 of its high byte (40_codec.md R125). -/
theorem decodeRawTemperature_toInt (lsb msb : Byte) :
    (decodeRawTemperature lsb msb).toInt =
      if 128 ≤ msb.toNat then 256 * (msb.toNat : Int) + lsb.toNat - 65536
      else 256 * (msb.toNat : Int) + lsb.toNat := by
  have hlt := lsb.isLt
  rw [decodeRawTemperature, combine16_eq_append, BitVec.toInt_eq_toNat_cond, toNat_append_eq_add]
  split <;> split <;> omega

/-- Settles O25: the numbers of the two results, and the flags as the bits of the layout. -/
theorem statusAndRawCodecRequests : Obligations.StatusAndRawCodecRequests := by
  refine ⟨fun s byte hs => ?_, fun b => ?_, fun s lsb msb hs => ?_⟩
  · exact perform_result hs nofun (by rw [zext32_eq_ofNat, snapshotByte_toNat])
  · have hlow : (snapshotByte b).extractLsb' 0 2 = 0#2 := by rw [snapshotByte_eq_append, extract_low]
    have hflags := eq_append_decodeStatus (snapshotByte b)
    rwa [hlow, decodeStatus_snapshotByte] at hflags
  · exact perform_result hs nofun (congrArg (BitVec.ofInt 32) (decodeRawTemperature_toInt lsb msb))

/-! ### ENC_ALERT and DEC_ALERT -/

theorem levelFor_toNat (flag : Bool) (level : BitVec 1) :
    (levelFor flag level).toNat = if flag then level.toNat else 1 - level.toNat := by
  revert flag level; decide

theorem alertMode_bit_eq_true_iff (mode : AlertMode) : mode.bit = true ↔ mode = .highAlarmLowAlarm := by
  cases mode <;> decide

theorem encodeAlert_toNat (p : Params) (enabled mode : Bool) :
    (encodeAlert p enabled mode).toNat =
      128 * (if enabled then p.alertEnLevel.toNat else 1 - p.alertEnLevel.toNat) +
        64 * (if mode then p.alertHalaLevel.toNat else 1 - p.alertHalaLevel.toNat) := by
  simp only [encodeAlert_eq_append, toNat_append_eq_add, levelFor_toNat, BitVec.toNat_ofNat]
  omega

theorem alertValue_toNat (e m : Bool) :
    (alertValue (e, m)).toNat = (if e then 1 else 0) + if m then 2 else 0 := by
  cases e <;> cases m <;> rfl

theorem decodeAlert_eq (p : Params) (b : Byte) :
    decodeAlert p b = (decide (b.toNat / 128 = p.alertEnLevel.toNat),
      decide (b.toNat / 64 % 2 = p.alertHalaLevel.toNat)) := by
  have htop : b.toNat / 128 % 2 = b.toNat / 128 := by
    have hlt := b.isLt
    omega
  simp only [decodeAlert, beq_eq_decide, ← BitVec.toNat_inj, extractLsb'_toNat_eq_div, Nat.reducePow,
    htop]

/-- Settles O26: levels and flags as numbers. -/
theorem alertCodecRequests : Obligations.AlertCodecRequests := by
  refine ⟨fun s enabled mode hs => perform_result hs nofun ?_, fun s byte hs => perform_result hs nofun ?_⟩
  · simp only [zext32_eq_ofNat, encodeAlert_toNat, alertMode_bit_eq_true_iff]
  · simp only [zext32_eq_ofNat, decodeAlert_eq, alertValue_toNat, decide_eq_true_eq]

/-! ### Decoders undo encoders -/

theorem decodeCommand_encodeCommand (mode : BitVec 2) (heater : Bool) :
    decodeCommand (encodeCommand mode heater) = (mode, heater) := by
  rw [decodeCommand, encodeCommand_eq_append]
  simp (disch := decide) only [BitVec.extractLsb'_append_eq_of_add_le, BitVec.extractLsb'_append_eq_of_le]
  cases heater <;> simp [heaterNibble]

theorem encodeConfig_sleep (rate : BitVec 3) (avg : BitVec 2) (sleep : Bool) :
    (encodeConfig rate avg sleep).getLsbD 0 = sleep := by
  rw [encodeConfig, BitVec.getLsbD_or, BitVec.getLsbD_or]
  cases sleep <;> simp [bit8]

theorem decodeConfig_encodeConfig (rate : BitVec 3) (avg : BitVec 2) (sleep : Bool) :
    decodeConfig (encodeConfig rate avg sleep) = (rate, avg, sleep) := by
  rw [decodeConfig, encodeConfig_sleep, encodeConfig_eq_append]
  simp (disch := decide) only [BitVec.extractLsb'_append_eq_of_add_le, BitVec.extractLsb'_append_eq_of_le]
  simp

/-- A level names the flag it was chosen for. -/
theorem levelFor_beq_level (flag : Bool) (level : BitVec 1) : (levelFor flag level == level) = flag := by
  revert flag level; decide

theorem decodeAlert_encodeAlert (p : Params) (enabled mode : Bool) :
    decodeAlert p (encodeAlert p enabled mode) = (enabled, mode) := by
  rw [decodeAlert, encodeAlert_eq_append]
  simp (disch := decide) only [BitVec.extractLsb'_append_eq_of_add_le, BitVec.extractLsb'_append_eq_of_le]
  simp [levelFor_beq_level]

theorem decodeRawTemperature_encodeRawPair (raw : Word16) :
    decodeRawTemperature (raw.extractLsb' 0 8) (raw.extractLsb' 8 8) = raw := by
  rw [decodeRawTemperature, combine16_eq_append]
  exact BitVec.extractLsb'_append_extractLsb'

/-- Settles O35: each decoder cuts the fields out of its encoder's layout. -/
theorem registerDecodersUndoEncoders : Obligations.RegisterDecodersUndoEncoders :=
  ⟨decodeCommand_encodeCommand, decodeConfig_encodeConfig, decodeAlert_encodeAlert,
    fun raw => ⟨_, _, rfl, decodeRawTemperature_encodeRawPair raw⟩⟩

end Sys2Proof.Machine
end

section
/-! SUPPORT. Proofs of the statements on the two Celsius conversions (40_codec.md R127 to R130, R136). -/

namespace Sys2Proof.Machine

/-! ### The fields of a binary32 word -/

theorem f32Exponent_eq (c : Word32) : f32Exponent c = c.toNat / 2 ^ 23 % 2 ^ 8 := extractLsb'_toNat_eq_div c 23 8

/-- A word below the infinities, its sign apart, is finite (G1). -/
theorem f32Exponent_ne_of_lt {c : Word32} (h : c.toNat % 2 ^ 31 < 0x7F800000) : f32Exponent c ≠ 255 := by
  rw [f32Exponent_eq]
  omega

theorem f32Sign_append (n : Bool) (e : BitVec 8) (f : BitVec 23) : f32Sign (BitVec.ofBool n ++ (e ++ f)) = n := by
  rw [f32Sign, show (BitVec.ofBool n ++ (e ++ f)).getLsbD 31 = _ from BitVec.getLsbD_append]
  simp

theorem f32Exponent_append (n : Bool) (e : BitVec 8) (f : BitVec 23) :
    f32Exponent (BitVec.ofBool n ++ (e ++ f)) = e.toNat := by
  simp (disch := decide) only [f32Exponent, BitVec.extractLsb'_append_eq_of_add_le,
    BitVec.extractLsb'_append_eq_of_le]
  exact congrArg BitVec.toNat BitVec.extractLsb'_eq_self

theorem f32Fraction_append (n : Bool) (e : BitVec 8) (f : BitVec 23) :
    f32Fraction (BitVec.ofBool n ++ (e ++ f)) = f.toNat := by
  simp (disch := decide) only [f32Fraction, BitVec.extractLsb'_append_eq_of_add_le]
  exact congrArg BitVec.toNat BitVec.extractLsb'_eq_self

/-- The value of a normal word: `(2^23 + f) * 2^(e-1)` units with its sign (G1). -/
theorem f32Exact_append (n : Bool) {e : BitVec 8} (f : BitVec 23) (he : e.toNat ≠ 0) :
    f32Exact (BitVec.ofBool n ++ (e ++ f)) =
      if n then -(((2 ^ 23 + f.toNat) * 2 ^ (e.toNat - 1) : Nat) : Int)
      else ((2 ^ 23 + f.toNat) * 2 ^ (e.toNat - 1) : Nat) := by
  rw [f32Exact, f32Magnitude, f32Sign_append, f32Exponent_append, f32Fraction_append, if_neg he]

/-! ### The words that the conversion to Celsius makes -/

/-- The fields of the word of `m / 256` that depend on `m`, read as numbers: nothing of either is cut off. -/
theorem f32OfUnits256_fields {m : Nat} (hm : m ≠ 0) (hlt : m < 2 ^ 24) :
    (BitVec.ofNat 8 (119 + m.log2)).toNat = 119 + m.log2 ∧
      (BitVec.ofNat 23 ((m - 2 ^ m.log2) * 2 ^ (23 - m.log2))).toNat = (m - 2 ^ m.log2) * 2 ^ (23 - m.log2) := by
  have hlog : m.log2 < 24 := (Nat.log2_lt hm).mpr hlt
  have htop : m - 2 ^ m.log2 < 2 ^ m.log2 := by
    have := Nat.lt_log2_self (n := m)
    omega
  have hfrac : (m - 2 ^ m.log2) * 2 ^ (23 - m.log2) < 2 ^ 23 :=
    calc (m - 2 ^ m.log2) * 2 ^ (23 - m.log2)
      _ < 2 ^ m.log2 * 2 ^ (23 - m.log2) := Nat.mul_lt_mul_of_pos_right htop (Nat.two_pow_pos _)
      _ = 2 ^ 23 := by rw [← Nat.pow_add]; congr 1; omega
  simp only [BitVec.toNat_ofNat]
  exact ⟨Nat.mod_eq_of_lt (by omega), Nat.mod_eq_of_lt hfrac⟩

/-- The top bit of `m` put back and moved to bit 23, times the power of the exponent field, is `m` in units of 2^-149
times 2^-8. -/
theorem f32OfUnits256_magnitude {m : Nat} (hm : m ≠ 0) (hlt : m < 2 ^ 24) :
    (2 ^ 23 + (m - 2 ^ m.log2) * 2 ^ (23 - m.log2)) * 2 ^ (119 + m.log2 - 1) = m * 2 ^ 141 := by
  have hlog : m.log2 < 24 := (Nat.log2_lt hm).mpr hlt
  have hself : 2 ^ m.log2 ≤ m := Nat.log2_self_le hm
  calc (2 ^ 23 + (m - 2 ^ m.log2) * 2 ^ (23 - m.log2)) * 2 ^ (119 + m.log2 - 1)
    _ = (2 ^ m.log2 * 2 ^ (23 - m.log2) + (m - 2 ^ m.log2) * 2 ^ (23 - m.log2)) * 2 ^ (119 + m.log2 - 1) := by
      rw [← Nat.pow_add, Nat.add_sub_of_le (by omega : m.log2 ≤ 23)]
    _ = m * (2 ^ (23 - m.log2) * 2 ^ (119 + m.log2 - 1)) := by
      rw [← Nat.add_mul, Nat.add_sub_of_le hself, Nat.mul_assoc]
    _ = m * 2 ^ 141 := by rw [← Nat.pow_add]; congr 2; omega

theorem f32OfUnits256_exponent (negative : Bool) {m : Nat} (hm : m ≠ 0) (hlt : m < 2 ^ 24) :
    f32Exponent (f32OfUnits256 negative m) = 119 + m.log2 := by
  rw [f32OfUnits256, if_neg hm, f32Exponent_append, (f32OfUnits256_fields hm hlt).1]

/-- The word of `± m / 256` has that value. -/
theorem f32Exact_f32OfUnits256 (negative : Bool) {m : Nat} (hlt : m < 2 ^ 24) :
    f32Exact (f32OfUnits256 negative m) = (if negative then -(m : Int) else m) * 2 ^ 141 := by
  by_cases hm : m = 0
  · subst hm
    cases negative <;> rfl
  · obtain ⟨he, hf⟩ := f32OfUnits256_fields hm hlt
    rw [f32OfUnits256, if_neg hm, f32Exact_append _ _ (by rw [he]; omega), he, hf, f32OfUnits256_magnitude hm hlt]
    cases negative <;> simp

/-- `raw + 6400` has 16 significant bits, whatever its sign (40_codec.md R127). -/
theorem natAbs_raw_add_lt (raw : Word16) : (raw.toInt + 6400).natAbs < 2 ^ 24 := by
  have hlo := raw.le_toInt
  have hhi := raw.toInt_lt
  omega

/-- The value of `rawToCelsius`, in units of 2^-149, is `(raw + 6400) / 256` with no rounding (40_codec.md R127). -/
theorem f32Exact_rawToCelsius (raw : Word16) : f32Exact (rawToCelsius raw) = (raw.toInt + 6400) * 2 ^ 141 := by
  rw [rawToCelsius, f32Exact_f32OfUnits256 _ (natAbs_raw_add_lt raw)]
  congr 1
  by_cases h : raw.toInt + 6400 < 0
  · rw [if_pos (by simpa using h), Int.ofNat_natAbs_of_nonpos (by omega), Int.neg_neg]
  · rw [if_neg (by simpa using h), Int.natAbs_of_nonneg (by omega)]

theorem rawToCelsius_of_eq {raw : Word16} (h : raw.toInt = -6400) : rawToCelsius raw = 0 := by
  rw [rawToCelsius, h]
  rfl

/-- Apart from +0.0, `rawToCelsius` makes normal words only (40_codec.md R127). -/
theorem f32Exponent_rawToCelsius {raw : Word16} (h : raw.toInt ≠ -6400) :
    0 < f32Exponent (rawToCelsius raw) ∧ f32Exponent (rawToCelsius raw) < 255 := by
  have hne : (raw.toInt + 6400).natAbs ≠ 0 := by omega
  have hlog := (Nat.log2_lt hne).mpr (natAbs_raw_add_lt raw)
  rw [rawToCelsius, f32OfUnits256_exponent _ hne (natAbs_raw_add_lt raw)]
  omega

theorem rawToCelsius_finite (raw : Word16) : f32Exponent (rawToCelsius raw) ≠ 255 := by
  by_cases h : raw.toInt = -6400
  · rw [rawToCelsius_of_eq h]
    decide
  · exact (f32Exponent_rawToCelsius h).2.ne

/-- Settles O27: the value is exact, and +0.0 is the only word that is not normal. -/
theorem rawToCelsiusRequestIsExact : Obligations.RawToCelsiusRequestIsExact := by
  intro s raw hs
  refine ⟨rawToCelsius raw, perform_result hs nofun rfl, rawToCelsius_finite raw, ?_, rawToCelsius_of_eq,
    fun h => (f32Exponent_rawToCelsius h).1.ne'⟩
  rw [f32Exact_rawToCelsius]
  push_cast
  ring

/-! ### Rounding and saturation -/

theorem f32Unit_pos : 0 < f32Unit := by decide

/-- A whole number is rounded to itself. -/
theorem roundHalfAwayFromZero_mul (r : Int) {den : Int} (hden : 0 < den) :
    roundHalfAwayFromZero (r * den) den = r := by
  have hround (q : Int) : (2 * (q * den) + den) / (2 * den) = q := by
    rw [Int.ediv_eq_iff_of_pos (by omega)]
    constructor <;> linarith
  rw [roundHalfAwayFromZero]
  split
  · rw [← Int.neg_mul, hround, Int.neg_neg]
  · exact hround r

/-- The integer form of the rounding is the one on rationals (40_codec.md R129). -/
theorem roundHalfAwayFromZero_eq_floor (num : Int) {den : Nat} (hden : 0 < den) :
    roundHalfAwayFromZero num den =
      if (num : ℚ) / den < 0 then -⌊-((num : ℚ) / den) + 1 / 2⌋ else ⌊(num : ℚ) / den + 1 / 2⌋ := by
  have hden' : (0 : ℚ) < den := by exact_mod_cast hden
  have hfloor (n : Int) : ⌊(n : ℚ) / den + 1 / 2⌋ = (2 * n + den) / (2 * den) := by
    have := Rat.floor_intCast_div_natCast (2 * n + den) (2 * den)
    push_cast at this
    rw [← this]
    congr 1
    field_simp
  have hsign : (num : ℚ) / den < 0 ↔ num < 0 := by
    rw [div_lt_iff₀ hden', zero_mul, Int.cast_lt_zero]
  have hneg := hfloor (-num)
  rw [Int.cast_neg, neg_div] at hneg
  simp only [roundHalfAwayFromZero, hsign, hneg, hfloor]

/-- Rounding keeps the order. -/
theorem roundHalfAwayFromZero_mono {a b den : Int} (hden : 0 < den) (hab : a ≤ b) :
    roundHalfAwayFromZero a den ≤ roundHalfAwayFromZero b den := by
  have hmono {x y : Int} (h : x ≤ y) : (2 * x + den) / (2 * den) ≤ (2 * y + den) / (2 * den) :=
    Int.ediv_le_ediv (by omega) (by omega)
  have hnonneg {x : Int} (h : 0 ≤ x) : 0 ≤ (2 * x + den) / (2 * den) := Int.ediv_nonneg (by omega) (by omega)
  simp only [roundHalfAwayFromZero]
  split <;> split
  · exact Int.neg_le_neg (hmono (by omega))
  · have ha : 0 ≤ (2 * -a + den) / (2 * den) := hnonneg (by omega)
    have hb : 0 ≤ (2 * b + den) / (2 * den) := hnonneg (by omega)
    omega
  · omega
  · exact hmono hab

theorem saturate16_mono {a b : Int} (h : a ≤ b) : saturate16 a ≤ saturate16 b := by
  simp only [saturate16]
  omega

theorem saturate16_of_fits {r : Int} (hlo : -32768 ≤ r) (hhi : r ≤ 32767) : saturate16 r = r := by
  simp only [saturate16]
  omega

/-- A saturated number fits a signed 16-bit word. -/
theorem toInt_ofInt_saturate16 (r : Int) : (BitVec.ofInt 16 (saturate16 r)).toInt = saturate16 r := by
  apply BitVec.toInt_ofInt_eq_self (by decide) <;> simp only [saturate16] <;> omega

/-! ### The conversion of a finite word -/

/-- The distance of a word's value from 25 degrees in units of 1/256 degree, exact, before its rounding, over
`f32Unit` (40_codec.md R129). -/
def rawNumerator (c : Word32) : Int := (f32Exact c - 25 * f32Unit) * 256

theorem celsiusToRaw_of_finite {c : Word32} (h : f32Exponent c ≠ 255) :
    celsiusToRaw c = some (BitVec.ofInt 16 (saturate16 (roundHalfAwayFromZero (rawNumerator c) f32Unit))) := by
  have hnan : f32IsNaN c = false := by simp [f32IsNaN, h]
  have hinf : f32IsInf c = false := by simp [f32IsInf, h]
  simp [celsiusToRaw, hnan, hinf, rawNumerator]

/-- A value of `k / 256` degrees is converted with no rounding. -/
theorem celsiusToRaw_of_grid {c : Word32} {k : Int} (h : f32Exponent c ≠ 255) (hk : f32Exact c = k * 2 ^ 141) :
    celsiusToRaw c = some (BitVec.ofInt 16 (saturate16 (k - 6400))) := by
  have hnum : rawNumerator c = (k - 6400) * f32Unit := by
    rw [rawNumerator, hk, f32Unit]
    ring
  rw [celsiusToRaw_of_finite h, hnum, roundHalfAwayFromZero_mul _ f32Unit_pos]

/-- Settles O30: the Celsius value of `raw` lies on the grid, at `raw + 6400`. -/
theorem rawTemperatureRoundTrip : Obligations.RawTemperatureRoundTrip := by
  intro raw
  have hlo := raw.le_toInt
  have hhi := raw.toInt_lt
  rw [celsiusToRaw_of_grid (rawToCelsius_finite raw) (f32Exact_rawToCelsius raw), Int.add_sub_cancel,
    saturate16_of_fits (by omega) (by omega), BitVec.ofInt_toInt]

/-- Settles O31: on the grid neither conversion rounds, and the range is far from saturation. -/
theorem gridCelsiusRoundTrip : Obligations.GridCelsiusRoundTrip := by
  intro c k hfin hval hlo hhi
  have hk : f32Exact c = k * 2 ^ 141 := by
    have hq : (f32Exact c : ℚ) = k * 2 ^ 141 := by
      rw [div_eq_iff (by positivity)] at hval
      rw [hval]
      ring
    exact_mod_cast hq
  refine ⟨_, celsiusToRaw_of_grid hfin hk, ?_⟩
  rw [f32Exact_rawToCelsius, toInt_ofInt_saturate16, saturate16_of_fits (by omega) (by omega), Int.sub_add_cancel, hk]

/-- Settles O32: rounding and saturation each keep the order, and a saturated number is read back from its word. -/
theorem celsiusToRawIsMonotone : Obligations.CelsiusToRawIsMonotone := by
  intro c d x y hc hd hle hx hy
  rw [celsiusToRaw_of_finite hc] at hx
  rw [celsiusToRaw_of_finite hd] at hy
  obtain rfl := Option.some.inj hx
  obtain rfl := Option.some.inj hy
  have hnum : rawNumerator c ≤ rawNumerator d := by
    simp only [rawNumerator]
    omega
  rw [toInt_ofInt_saturate16, toInt_ofInt_saturate16]
  exact saturate16_mono (roundHalfAwayFromZero_mono f32Unit_pos hnum)

/-! ### C_TO_RAW -/

/-- C_TO_RAW on a word with a raw temperature answers it, its sign extended (40_codec.md R130). -/
theorem exec_cToRaw_some {s : State} {c : Word32} {raw : Word16} (hs : s.phase = .run (.cToRaw c) .start)
    (h : celsiusToRaw c = some raw) :
    exec (.cToRaw c) s = .next (responded s (okResponse (sext32 raw) [] .notChecked)) := by
  have hr : cToRawResponse c = .result (sext32 raw) := by simp [cToRawResponse, h]
  exact (perform_respondNow hs _).trans (by rw [hr, emit_result hs nofun])

/-- C_TO_RAW on a NaN raises PARAMETER_ERROR (40_codec.md R130). -/
theorem exec_cToRaw_none {s : State} {c : Word32} (hs : s.phase = .run (.cToRaw c) .start)
    (h : celsiusToRaw c = none) :
    exec (.cToRaw c) s = .next { responded s (errorResponse .parameterError) with lastError := .parameterError } := by
  have hr : cToRawResponse c = .failed .parameterError := by simp [cToRawResponse, h]
  exact (perform_respondNow hs _).trans (by rw [hr, emit_failed (e := .parameterError) hs nofun nofun])

theorem celsiusToRaw_of_nan {c : Word32} (h : 0x7F800000 < c.toNat % 2 ^ 31) : celsiusToRaw c = none := by
  have hmod : (c &&& 0x7FFFFFFF).toNat = c.toNat % 2 ^ 31 := by
    rw [BitVec.toNat_and]
    exact Nat.and_two_pow_sub_one_eq_mod c.toNat 31
  exact celsiusToRaw_eq_none (by omega)

/-- The saturated number of `celsiusToRaw`, its sign extended, is that number as a 32-bit word. -/
theorem sext32_ofInt_saturate16 (r : Int) : sext32 (BitVec.ofInt 16 (saturate16 r)) = BitVec.ofInt 32 (saturate16 r) :=
  congrArg (BitVec.ofInt 32) (toInt_ofInt_saturate16 r)

/-- The rational that R129 rounds. -/
theorem rawNumerator_div (c : Word32) :
    (rawNumerator c : ℚ) / (2 ^ 149 : Nat) = ((f32Exact c : ℚ) / 2 ^ 149 - 25) * 256 := by
  rw [rawNumerator, f32Unit]
  push_cast
  ring

/-- Settles O28, by the kind of the operand: NaN, infinity, finite. -/
theorem celsiusToRawRequestRoundsOnceAndSaturates : Obligations.CelsiusToRawRequestRoundsOnceAndSaturates := by
  intro s c hs
  refine ⟨fun hnan => exec_cToRaw_none hs (celsiusToRaw_of_nan hnan), ?_, ?_, ?_⟩
  · rintro rfl
    exact exec_cToRaw_some hs (raw := 0x7FFF) (by rfl)
  · rintro rfl
    exact exec_cToRaw_some hs (raw := 0x8000) (by rfl)
  · intro hfin x hx
    rw [exec_cToRaw_some hs (celsiusToRaw_of_finite (f32Exponent_ne_of_lt hfin)), sext32_ofInt_saturate16, hx,
      ← rawNumerator_div, ← roundHalfAwayFromZero_eq_floor _ (Nat.two_pow_pos 149)]
    rfl

end Sys2Proof.Machine
end

section
/-! SUPPORT. Proofs of the statements on the checksum (40_codec.md R131 to R133, R136). -/

namespace Sys2Proof.Machine

/-! ### One round -/

theorem crcRound_eq_xor (r : Byte) : crcRound r = (r <<< 1) ^^^ (if r.getLsbD 7 then 0x31 else 0) := by
  rw [crcRound]
  split
  · rfl
  · exact BitVec.xor_zero.symm

/-- A round is linear over XOR: both the shift and the choice of the polynomial by bit 7 are. -/
theorem crcRound_xor (a b : Byte) : crcRound (a ^^^ b) = crcRound a ^^^ crcRound b := by
  have hpoly (p q : Bool) :
      (if p ^^ q then 0x31 else 0 : Byte) = (if p then 0x31 else 0) ^^^ (if q then 0x31 else 0) := by
    cases p <;> cases q <;> rfl
  simp only [crcRound_eq_xor, BitVec.getLsbD_xor, BitVec.shiftLeft_xor_distrib, hpoly]
  ac_rfl

/-- A round loses nothing: bit 7, which the shift drops, is seen in bit 0, which only the polynomial sets. -/
theorem crcRound_eq_zero {r : Byte} (h : crcRound r = 0) : r = 0 := by
  cases h7 : r.getLsbD 7 with
  | false =>
    rw [crcRound, h7, if_neg Bool.false_ne_true] at h
    refine BitVec.eq_of_getLsbD_eq fun k hk => ?_
    obtain rfl | hk7 : k = 7 ∨ k + 1 < 8 := by omega
    · simpa using h7
    · have := congrArg (BitVec.getLsbD · (k + 1)) h
      simpa [hk7, BitVec.getLsbD_eq_getElem hk] using this
  | true =>
    rw [crcRound, h7, if_pos rfl] at h
    have := congrArg (BitVec.getLsbD · 0) h
    simp at this

/-- A round on numbers: doubling within 8 bits, and the polynomial where the number was at least 128. -/
def crcRoundNat (r : Nat) : Nat := if 128 ≤ r then (2 * r % 256) ^^^ 0x31 else 2 * r % 256

theorem crcRound_toNat (r : Byte) : (crcRound r).toNat = crcRoundNat r.toNat := by
  have hshift : (r <<< 1).toNat = 2 * r.toNat % 256 := by
    rw [BitVec.toNat_shiftLeft, Nat.shiftLeft_eq, Nat.mul_comm]
  have hbit : r.getLsbD 7 = true ↔ 128 ≤ r.toNat := by
    rw [← BitVec.msb_eq_getLsbD_last (x := r), BitVec.msb_eq_decide, decide_eq_true_iff]
  simp only [crcRound, crcRoundNat, hbit]
  split
  · rw [BitVec.toNat_xor, hshift]
    rfl
  · exact hshift

/-! ### Eight rounds -/

theorem crcRounds_eq_iterate (n : Nat) (r : Byte) : crcRounds n r = crcRound^[n] r := by
  induction n generalizing r with
  | zero => rfl
  | succ n ih => exact ih (crcRound r)

theorem crcRounds_xor (n : Nat) (a b : Byte) : crcRounds n (a ^^^ b) = crcRounds n a ^^^ crcRounds n b := by
  induction n generalizing a b with
  | zero => rfl
  | succ n ih => simp only [crcRounds, crcRound_xor, ih]

theorem crcRounds_eq_zero {n : Nat} {r : Byte} (h : crcRounds n r = 0) : r = 0 := by
  induction n generalizing r with
  | zero => exact h
  | succ n ih => exact crcRound_eq_zero (ih h)

theorem crcRounds_injective (n : Nat) : Function.Injective (crcRounds n) := by
  intro a b h
  rw [← BitVec.xor_eq_zero_iff] at h ⊢
  exact crcRounds_eq_zero ((crcRounds_xor n a b).trans h)

theorem crcRounds_toNat (n : Nat) (r : Byte) : (crcRounds n r).toNat = crcRoundNat^[n] r.toNat := by
  rw [crcRounds_eq_iterate]
  exact Function.Semiconj.iterate_right (f := BitVec.toNat) crcRound_toNat n r

/-- Settles O29: the eight rounds on numbers, started from the XOR of accumulator and byte. -/
theorem crcUpdateRequest : Obligations.CrcUpdateRequest := by
  refine ⟨fun s acc byte hs => perform_result hs nofun ?_, fun acc b => ?_⟩
  · rw [zext32, ← BitVec.ofNat_toNat, crc8Update, crcRounds_toNat, BitVec.toNat_xor]
    rfl
  · exact congrArg (crcRounds 8) BitVec.zero_xor.symm

/-! ### One byte -/

theorem crc8Update_xor (a c b d : Byte) :
    crc8Update (a ^^^ c) (b ^^^ d) = crc8Update a b ^^^ crc8Update c d := by
  simp only [crc8Update, ← crcRounds_xor]
  congr 1
  ac_rfl

theorem crc8Update_left_injective (b : Byte) : Function.Injective (crc8Update · b) := by
  intro acc acc' h
  exact (BitVec.xor_left_inj b).mp (crcRounds_injective 8 h)

theorem crc8Update_right_injective (acc : Byte) : Function.Injective (crc8Update acc) := by
  intro b b' h
  exact (BitVec.xor_right_inj acc).mp (crcRounds_injective 8 h)

/-- A byte equal to the accumulator cancels it. -/
theorem crc8Update_self (acc : Byte) : crc8Update acc acc = 0 := by
  rw [crc8Update, BitVec.xor_self]
  rfl

/-! ### Sequences -/

theorem crc8_append (a b : List Byte) : crc8 (a ++ b) = b.foldl crc8Update (crc8 a) := List.foldl_append

/-- Linearity from any two accumulators, so that it passes through the fold. -/
theorem foldl_crc8Update_xor {a b : List Byte} (h : a.length = b.length) (x y : Byte) :
    (List.zipWith (· ^^^ ·) a b).foldl crc8Update (x ^^^ y) = a.foldl crc8Update x ^^^ b.foldl crc8Update y := by
  induction a generalizing b x y with
  | nil =>
    obtain rfl := List.length_eq_zero_iff.mp h.symm
    rfl
  | cons p a ih =>
    cases b with
    | nil => cases h
    | cons q b =>
      simp only [List.zipWith_cons_cons, List.foldl_cons, crc8Update_xor]
      exact ih (Nat.succ.inj h) _ _

/-- The bytes that follow never make two different accumulators equal. -/
theorem foldl_crc8Update_injective (s : List Byte) : Function.Injective (s.foldl crc8Update) := by
  induction s with
  | nil => exact Function.injective_id
  | cons b s ih => exact ih.comp (crc8Update_left_injective b)

theorem crc8_replicate_zero (n : Nat) : crc8 (List.replicate n 0) = 0 := by
  induction n with
  | zero => rfl
  | succ n ih => rw [List.replicate_succ', crc8_append, ih]; exact crc8Update_self 0

/-- Settles O33: the fold is linear, and a byte equal to the accumulator cancels it. -/
theorem checksumIsLinearAndCancels : Obligations.ChecksumIsLinearAndCancels :=
  ⟨fun _ _ h => foldl_crc8Update_xor h 0 0, fun s => (crc8_append s _).trans (crc8Update_self (crc8 s)),
    crc8_replicate_zero⟩

/-- The checksum tells apart any two values of one byte, the others being equal. -/
theorem crc8_byte_injective (before later : List Byte) :
    Function.Injective fun b => crc8 (before ++ b :: later) := by
  intro b b' h
  simp only [crc8_append, List.foldl_cons] at h
  exact crc8Update_right_injective _ (foldl_crc8Update_injective later h)

/-- Settles O34: a flipped bit makes another byte. -/
theorem checksumDetectsEverySingleBitFlip : Obligations.ChecksumDetectsEverySingleBitFlip := by
  intro before later b k hk h
  have hbyte : b ^^^ (1#8 <<< k) = b := crc8_byte_injective before later h
  have hbit := congrArg (BitVec.getLsbD · k) hbyte
  simp [hk] at hbit

end Sys2Proof.Machine
end

section
/-! SUPPORT. Proofs of the statements on the session requests (41_session.md R140 to R165). What a request leaves after
one transfer or one sleep is said once for all requests; a request then adds the transfer its pseudocode makes and the
numbers of the bytes it writes and answers. -/

namespace Sys2Proof.Machine

/-! ### The step of one primitive -/

theorem raise_answered_eq_after {s : State} {i : Instr} {pos : Pos} {rest : List Answer} {e : Event}
    (hs : s.phase = .run i pos) (st : Status) :
    (s.answered rest e).raise st = after s i rest e (.respond (errorResponse st)) :=
  moveTo_answered_eq_after hs

/-- A request whose step is a `ReadN` raises on a failed and on a short read (41_session.md R141). -/
theorem readRaises_of_readN {i : Instr} {pos : Pos} {s : State} {addr : Byte} {n : Nat}
    {k : List Byte → State → State} (hs : s.phase = .run i pos) (hx : exec i s = readN addr n k s) :
    ReadRaises i s addr n := by
  refine ⟨fun rest ha => ?_, fun bs rest hlt ha => ?_⟩
  · rw [hx, readN, memRead_answered ha rfl, afterReadN_fail, raise_answered_eq_after hs]
  · have hfits : (ReadAnswer.bytes bs).fits n = true := decide_eq_true hlt.le
    rw [hx, readN, memRead_answered ha hfits, afterReadN_short _ hlt, raise_answered_eq_after hs]

/-- A request whose step is a `ReadN` goes on from a full read to the position its pseudocode makes of the bytes
(41_session.md R141). -/
theorem exec_of_readN {i : Instr} {pos : Pos} {s : State} {addr : Byte} {n : Nat} {q : List Byte → Pos}
    (hs : s.phase = .run i pos) (hx : exec i s = readN addr n (fun bs t => t.moveTo (q bs)) s) {bs : List Byte}
    {rest : List Answer} (hlen : bs.length = n) (ha : s.answers = .read (.bytes bs) :: rest) :
    exec i s = .next (after s i rest (.memRead addr n (.bytes bs)) (q bs)) := by
  have hfits : (ReadAnswer.bytes bs).fits n = true := decide_eq_true hlen.le
  rw [hx, readN, memRead_answered ha hfits, afterReadN_full _ hlen, moveTo_answered_eq_after hs]

/-- A request whose step is a `WriteN` raises on a failed write (41_session.md R142). -/
theorem writeRaises_of_writeN {i : Instr} {pos : Pos} {s : State} {addr : Byte} {bytes : List Byte}
    {k : State → State} (hs : s.phase = .run i pos) (hx : exec i s = writeN addr bytes k s) :
    WriteRaises i s addr bytes := by
  intro rest ha
  rw [hx, writeN, memWrite_answered ha, afterWriteN_fail, raise_answered_eq_after hs]

/-- A request whose step is a `WriteN` goes on from the written bytes to the position `q`, and raises if the write
failed; `f` is its write of a mirror, or `id` (41_session.md R142). -/
theorem exec_of_writeN {i : Instr} {pos : Pos} {s : State} {addr : Byte} {bytes : List Byte} {q : Pos}
    (f : State → State) (hs : s.phase = .run i pos)
    (hx : exec i s = writeN addr bytes (fun t => f (t.moveTo q)) s) :
    (∀ rest, s.answers = .written true :: rest →
      exec i s = .next (f (after s i rest (.memWrite addr bytes true) q))) ∧ WriteRaises i s addr bytes := by
  refine ⟨fun rest ha => ?_, writeRaises_of_writeN hs hx⟩
  rw [hx, writeN, memWrite_answered ha, afterWriteN_ok, moveTo_answered_eq_after hs]

/-- The step of a one-byte write whose byte is the result (41_session.md R152, R161, R164). -/
theorem exec_of_writeByte {i : Instr} {pos : Pos} {s : State} {addr b : Byte} (hs : s.phase = .run i pos)
    (hx : exec i s = writeByte addr b s) :
    (∀ rest, s.answers = .written true :: rest →
      exec i s = .next (after s i rest (.memWrite addr [b] true)
        (.respond (okResponse (b.setWidth 32) [] .notChecked)))) ∧ WriteRaises i s addr [b] :=
  exec_of_writeN id hs hx

/-! ### CONFIGURE, SET_MODE and the guard delay -/

/-- Settles O37: the byte with that number is the packed one. -/
theorem configureWritesConfigThenMirror : Obligations.ConfigureWritesConfigThenMirror := by
  intro s rate avg slp hs b hb
  obtain rfl : b = encodeConfig rate.code avg.code slp :=
    BitVec.eq_of_toNat_eq (hb.trans (encodeConfig_toNat _ _ _).symm)
  exact exec_of_writeN (·.setCfg ⟨true, rate.code, avg.code, slp⟩) hs (perform_body hs nofun)

/-- Settles O38: the byte with that number is the packed one. -/
theorem setModeWritesCommandThenMirror : Obligations.SetModeWritesCommandThenMirror := by
  intro s mode heat hs b hb
  obtain rfl : b = encodeCommand mode.code heat := BitVec.eq_of_toNat_eq (hb.trans (encodeCommand_toNat _ _).symm)
  exact exec_of_writeN (·.setMode ⟨true, mode.code⟩) hs (perform_body hs nofun)

theorem conversionLatency_eq (avg : BitVec 2) :
    conversionLatency avg = if avg = 0 then 4 else if avg = 1 then 7 else if avg = 2 then 10 else 18 := by
  revert avg; decide

/-- Settles O39, by the four averaging codes. -/
theorem guardDelayFollowsTheMirror : Obligations.GuardDelayFollowsTheMirror := by
  intro cfg
  rw [latency, conversionLatency_eq]
  rfl

/-! ### READ_TEMP and SINGLE_SHOT -/

theorem pairCelsius_pair (lsb msb : Byte) (bs : List Byte) :
    pairCelsius (lsb :: msb :: bs) = rawToCelsius (msb ++ lsb) :=
  congrArg rawToCelsius (combine16_eq_append lsb msb)

theorem readTempResponse_unchecked (lsb msb : Byte) :
    readTempResponse false [lsb, msb] = okResponse (rawToCelsius (msb ++ lsb)) [lsb, msb] .notChecked := by
  rw [readTempResponse, pairCelsius_pair]
  rfl

theorem readTempResponse_checked (lsb msb crc : Byte) :
    readTempResponse true [lsb, msb, crc] =
      okResponse (rawToCelsius (msb ++ lsb)) [lsb, msb] (if crc8 [lsb, msb] = crc then .matched else .mismatch) := by
  rw [readTempResponse, pairCelsius_pair]
  rfl

/-- The read of READ_TEMP stands at its start, or after the guard delay with `wait` (41_session.md R146). -/
theorem exec_readTemp_transfer {s : State} {wait checked : Bool}
    (hs : s.phase = .run (.readTemp wait checked) (if wait then .delayed else .start)) :
    exec (.readTemp wait checked) s = readN 0x00 (if checked then 3 else 2)
      (fun bs t => t.finish (readTempResponse checked bs)) s := by
  cases wait with
  | true => exact perform_body hs nofun
  | false => exact perform_body hs nofun

/-- Settles O40: the sleep, then the one read with its two responses and its failures. -/
theorem readTempSleepsReadsAndConverts : Obligations.ReadTempSleepsReadsAndConverts := by
  refine ⟨fun s checked rest hs ha => ?_, fun s wait lsb msb rest hs ha => ?_,
    fun s wait lsb msb crc rest hs ha => ?_, fun s wait checked hs => ?_⟩
  · calc exec (.readTemp true checked) s
      _ = sleep (latency s.cfg) (·.moveTo .delayed) s := perform_body hs nofun
      _ = .next ((s.answered rest (.sleep (latency s.cfg))).moveTo .delayed) := sleep_answered ha
      _ = _ := by rw [moveTo_answered_eq_after hs]
  · rw [← readTempResponse_unchecked]
    exact exec_of_readN hs (exec_readTemp_transfer hs) rfl ha
  · rw [← readTempResponse_checked]
    exact exec_of_readN hs (exec_readTemp_transfer hs) rfl ha
  · exact readRaises_of_readN hs (exec_readTemp_transfer hs)

/-- Settles O41: the three primitives, the last two as in a whole request. -/
theorem singleShotTriggersSleepsAndVerifies : Obligations.SingleShotTriggersSleepsAndVerifies := by
  refine ⟨fun s hs => ?_, fun s rest hs ha => ?_, fun s hs => ⟨fun lsb msb crc rest ha => ?_, ?_⟩⟩
  · exact exec_of_writeN (·.setMode ⟨true, Mode.singleShot.code⟩) hs (perform_body hs nofun)
  · rw [← step_run hs, step_singleShot_triggered hs ha]
  · rw [← step_run hs, step_singleShot_delayed hs ha, singleShotResponse_bytes]
  · exact readRaises_of_readN hs (perform_body hs nofun)

/-! ### READ_STATUS and IS_BUSY -/

/-- Settles O43: bits 1:0 are dropped from the number of the snapshot. -/
theorem readStatusReturnsTheSnapshot : Obligations.ReadStatusReturnsTheSnapshot := by
  intro s hs
  have hx : exec .readStatus s = readN 0x03 1
      (fun bs t => t.finish (.result (zext32 (snapshotByte (byteAt bs 0))) [byteAt bs 0])) s := perform_body hs nofun
  refine ⟨fun b rest ha => ?_, readRaises_of_readN hs hx⟩
  rw [← snapshotByte_toNat, ← zext32_eq_ofNat]
  exact exec_of_readN hs hx rfl ha

theorem zext32_anyBusy (b : Byte) :
    zext32 (bit8 (anyBusy b)) = if b.getLsbD 5 = true ∨ b.getLsbD 4 = true then 1 else 0 := by
  have hbusy : anyBusy b = true ↔ b.getLsbD 5 = true ∨ b.getLsbD 4 = true := by simp [anyBusy, decodeStatus]
  rw [← if_congr hbusy rfl rfl]
  cases anyBusy b <;> rfl

/-- IS_BUSY makes a response of every answer of its read, failed or not (41_session.md R149). -/
theorem exec_isBusy_answered {s : State} {a : ReadAnswer} {rest : List Answer} (hs : s.phase = .run .isBusy .start)
    (ha : s.answers = .read a :: rest) (hfits : a.fits 1 = true) :
    exec .isBusy s = .next (after s .isBusy rest (.memRead 0x03 1 a) (.respond (isBusyResponse a))) :=
  calc exec .isBusy s
    _ = memRead 0x03 1 (fun a t => t.finish (isBusyResponse a)) s := perform_body hs nofun
    _ = .next ((s.answered rest (.memRead 0x03 1 a)).moveTo (.respond (isBusyResponse a))) :=
      memRead_answered ha hfits
    _ = _ := by rw [moveTo_answered_eq_after hs]

/-- Settles O44, by the answers of the read: a byte, a failure, no byte. -/
theorem isBusyIsConservative : Obligations.IsBusyIsConservative := by
  refine fun s hs => ⟨fun b rest ha => ?_, fun rest ha => ?_, fun rest ha => ?_⟩
  · rw [← zext32_anyBusy]
    exact exec_isBusy_answered hs ha rfl
  · exact exec_isBusy_answered hs ha rfl
  · exact exec_isBusy_answered hs ha rfl

/-! ### HEATER_ON and HEATER_OFF -/

theorem heaterOffByte_toNat (b : Byte) : (heaterOffByte b).toNat = b.toNat / 16 * 16 + 0 := by
  revert b; decide

theorem heaterOnByte_toNat (b : Byte) : (heaterOnByte b).toNat = b.toNat / 16 * 16 + 10 := by
  revert b; decide

/-- Both heater requests are one read-modify-write: the byte written keeps the upper nibble of the byte read
(41_session.md R150, R151). -/
theorem exec_heater {i : Instr} {nibble : Nat} (hi : i = .heaterOn ∧ nibble = 10 ∨ i = .heaterOff ∧ nibble = 0) :
    ∃ f : Byte → Byte, (∀ s, exec i s = perform i (heaterBody f) s) ∧
      ∀ b, (f b).toNat = b.toNat / 16 * 16 + nibble := by
  obtain ⟨rfl, rfl⟩ | ⟨rfl, rfl⟩ := hi
  · exact ⟨heaterOnByte, fun _ => rfl, heaterOnByte_toNat⟩
  · exact ⟨heaterOffByte, fun _ => rfl, heaterOffByte_toNat⟩

/-- Settles O45: the read, then the write of the byte with that number. -/
theorem heaterRequestsKeepTheUpperNibble : Obligations.HeaterRequestsKeepTheUpperNibble := by
  intro s i nibble hi
  obtain ⟨f, hexec, hf⟩ := exec_heater hi
  refine ⟨fun hs => ?_, fun b c hs hc => ?_⟩
  · have hx : exec i s = readN 0x04 1 (fun bs t => t.moveTo (.commandRead (byteAt bs 0))) s :=
      (hexec s).trans (perform_body hs nofun)
    exact ⟨fun b rest ha => exec_of_readN hs hx rfl ha, readRaises_of_readN hs hx⟩
  · obtain rfl : c = f b := BitVec.eq_of_toNat_eq (hc.trans (hf b).symm)
    exact exec_of_writeByte hs ((hexec s).trans (perform_body hs nofun))

/-! ### SET_ALERT_MODE, GET_ALERT_MODE and SET_PARASITIC -/

/-- Settles O46: each request writes the byte with that number. -/
theorem alertAndParasiticWrites : Obligations.AlertAndParasiticWrites := by
  refine ⟨fun s enabled mode hs b hb => ?_, fun s enabled hs b hb => ?_⟩
  · obtain rfl : b = encodeAlert s.params enabled mode.bit := BitVec.eq_of_toNat_eq (by
      rw [hb, encodeAlert_toNat, if_congr (alertMode_bit_eq_true_iff mode) rfl rfl])
    exact exec_of_writeByte hs (perform_body hs nofun)
  · subst hb
    exact exec_of_writeByte hs (perform_body hs nofun)

/-- Settles O47: the flags as comparisons of numbers. -/
theorem getAlertModeDecodesByTheParameters : Obligations.GetAlertModeDecodesByTheParameters := by
  intro s hs
  have hx : exec .getAlertMode s = readN 0x06 1 (fun bs t => t.finish
      (.result (zext32 (alertValue (decodeAlert s.params (byteAt bs 0)))) [byteAt bs 0])) s := perform_body hs nofun
  refine ⟨fun b rest ha => ?_, readRaises_of_readN hs hx⟩
  have hvalue : zext32 (alertValue (decodeAlert s.params b)) = BitVec.ofNat 32
      ((if b.toNat / 128 = s.params.alertEnLevel.toNat then 1 else 0) +
        (if b.toNat / 64 % 2 = s.params.alertHalaLevel.toNat then 2 else 0)) := by
    simp only [zext32_eq_ofNat, decodeAlert_eq, alertValue_toNat, decide_eq_true_eq]
  rw [← hvalue]
  exact exec_of_readN hs hx rfl ha

/-! ### The thresholds -/

/-- A binary32 word up to the infinities, its sign apart, has a raw temperature (G1; 40_codec.md R129). -/
theorem celsiusToRaw_eq_some {c : Word32} (h : c.toNat % 2 ^ 31 ≤ 0x7F800000) : ∃ raw, celsiusToRaw c = some raw := by
  have hnan : f32IsNaN c = false := by
    have hfrac : f32Fraction c = c.toNat % 2 ^ 23 := by
      rw [f32Fraction, extractLsb'_toNat_eq_div, Nat.pow_zero, Nat.div_one]
    rw [← Bool.not_eq_true]
    simp only [f32IsNaN, Bool.and_eq_true, beq_iff_eq, bne_iff_ne, f32Exponent_eq, hfrac]
    omega
  cases hinf : f32IsInf c with
  | true => exact ⟨_, by rw [celsiusToRaw, hnan, hinf]; rfl⟩
  | false => exact ⟨_, by rw [celsiusToRaw, hnan, hinf]; rfl⟩

/-- Both requests are one threshold write, each at its address (41_session.md R154, R155). -/
theorem exec_setLimit {s : State} {c : Word32} {i : Instr} {addr : Byte}
    (hi : i = .setHighLimit c ∧ addr = 0x07 ∨ i = .setLowLimit c ∧ addr = 0x09) (hs : s.phase = .run i .start) :
    i ≠ .lastError ∧ exec i s = setLimit addr c s := by
  obtain ⟨rfl, rfl⟩ | ⟨rfl, rfl⟩ := hi
  · exact ⟨nofun, perform_body hs nofun⟩
  · exact ⟨nofun, perform_body hs nofun⟩

/-- Settles O48: a NaN is refused, and the raw temperature of any other word is written low byte first. -/
theorem limitWritesAreOneLittleEndianTransfer : Obligations.LimitWritesAreOneLittleEndianTransfer := by
  intro s c i addr hi hs
  obtain ⟨hne, hx⟩ := exec_setLimit hi hs
  refine ⟨fun hnan => ?_, fun hle => ?_⟩
  · rw [hx, setLimit, celsiusToRaw_of_nan hnan]
    exact congrArg _ (emit_failed (e := .parameterError) hs hne nofun)
  · obtain ⟨raw, hraw⟩ := celsiusToRaw_eq_some hle
    have hpair : raw.extractLsb' 8 8 ++ raw.extractLsb' 0 8 = raw := BitVec.extractLsb'_append_extractLsb'
    refine ⟨raw.extractLsb' 0 8, raw.extractLsb' 8 8, hraw.trans (congrArg some hpair.symm), ?_⟩
    rw [hpair]
    exact exec_of_writeN id hs (by rw [hx, setLimit, hraw]; rfl)

/-- Settles O49: both requests are one threshold read, each at its address. -/
theorem limitReadsConvertTheLittleEndianPair : Obligations.LimitReadsConvertTheLittleEndianPair := by
  intro s i addr hi hs
  have hx : exec i s = readN addr 2
      (fun bs t => t.finish (.result (pairCelsius bs) [byteAt bs 0, byteAt bs 1])) s := by
    obtain ⟨rfl, rfl⟩ | ⟨rfl, rfl⟩ := hi
    · exact perform_body hs nofun
    · exact perform_body hs nofun
  refine ⟨fun lsb msb rest ha => ?_, readRaises_of_readN hs hx⟩
  rw [← pairCelsius_pair lsb msb []]
  exact exec_of_readN hs hx rfl ha

/-! ### Identification and user registers -/

theorem zext32of16_combine16 (lsb msb : Byte) :
    zext32of16 (combine16 lsb msb) = BitVec.ofNat 32 (256 * msb.toNat + lsb.toNat) := by
  have hnumber : (combine16 lsb msb).toNat = 256 * msb.toNat + lsb.toNat := by
    rw [combine16_eq_append, toNat_append_eq_add]
    omega
  rw [← hnumber, BitVec.ofNat_toNat]
  rfl

/-- Settles O50: the number of the pair, and the five bytes as they are read. -/
theorem identificationReads : Obligations.IdentificationReads := by
  refine ⟨fun s hs => ?_, fun s hs => ?_⟩
  · have hx : exec .readDeviceId s = readN 0x18 2 (fun bs t => t.finish
        (.result (zext32of16 (combine16 (byteAt bs 0) (byteAt bs 1))) [byteAt bs 0, byteAt bs 1])) s :=
      perform_body hs nofun
    refine ⟨fun lsb msb rest ha => ?_, readRaises_of_readN hs hx⟩
    rw [← zext32of16_combine16]
    exact exec_of_readN hs hx rfl ha
  · have hx : exec .readRomCode s = readN 0x1A 5 (fun bs t => t.finish (.result 0 bs)) s := perform_body hs nofun
    exact ⟨fun bs rest hlen ha => exec_of_readN hs hx hlen ha, readRaises_of_readN hs hx⟩

theorem user_eq_ofNat (index : Byte) : Addr.user index = BitVec.ofNat 8 (12 + index.toNat) := by
  rw [BitVec.ofNat_add, BitVec.ofNat_toNat, BitVec.setWidth_eq]
  rfl

theorem exec_readUserReg {s : State} {index : Byte} (hs : s.phase = .run (.readUserReg index) .start) :
    exec (.readUserReg index) s =
      if index.toNat ≤ 9 then
        readN (BitVec.ofNat 8 (12 + index.toNat)) 1
          (fun bs t => t.finish (.result (zext32 (byteAt bs 0)) [byteAt bs 0])) s
      else .next (s.emit (.failed .parameterError)) := by
  refine (perform_body hs nofun).trans ?_
  by_cases h : index.toNat ≤ 9 <;> simp [userIndexOk, h, user_eq_ofNat]

theorem exec_writeUserReg {s : State} {index value : Byte}
    (hs : s.phase = .run (.writeUserReg index value) .start) :
    exec (.writeUserReg index value) s =
      if index.toNat ≤ 9 then writeByte (BitVec.ofNat 8 (12 + index.toNat)) value s
      else .next (s.emit (.failed .parameterError)) := by
  refine (perform_body hs nofun).trans ?_
  by_cases h : index.toNat ≤ 9 <;> simp [userIndexOk, h, user_eq_ofNat]

/-- Settles O51: a refused index emits, an index in range makes its transfer. -/
theorem userRegisterAccess : Obligations.UserRegisterAccess := by
  refine ⟨fun s index hs => ⟨fun hgt => ?_, fun hle => ?_⟩, fun s index value hs => ⟨fun hgt => ?_, fun hle => ?_⟩⟩
  · rw [exec_readUserReg hs, if_neg hgt.not_ge, emit_failed (e := .parameterError) hs nofun nofun]
  · have hx := (exec_readUserReg hs).trans (if_pos hle)
    exact ⟨fun b rest ha => exec_of_readN hs hx rfl ha, readRaises_of_readN hs hx⟩
  · rw [exec_writeUserReg hs, if_neg hgt.not_ge, emit_failed (e := .parameterError) hs nofun nofun]
  · exact exec_of_writeByte hs ((exec_writeUserReg hs).trans (if_pos hle))

/-! ### READ_SCRATCH and READ_SCRATCH_EXT -/

theorem scratchValue_eq_ofNat (received computed : Byte) :
    scratchValue received computed = BitVec.ofNat 32 (received.toNat + 256 * computed.toNat) := by
  have hor : (zext32 received).toNat ||| (zext32 computed <<< 8).toNat = received.toNat + 256 * computed.toNat := by
    have hreceived := received.isLt
    have hcomputed := computed.isLt
    simp (disch := omega) only [zext32, BitVec.toNat_shiftLeft, BitVec.toNat_setWidth, Nat.mod_eq_of_lt]
    rw [Nat.lor_comm, ← Nat.shiftLeft_add_eq_or_of_lt hreceived]
    omega
  rw [← hor, ← BitVec.toNat_or, BitVec.ofNat_toNat]
  rfl

/-- The response to the data bytes and the checksum of a scratch read (41_session.md R162, R163). -/
theorem scratchResponse_append (bs : List Byte) (crc : Byte) :
    scratchResponse bs.length (bs ++ [crc]) =
      okResponse (BitVec.ofNat 32 (crc.toNat + 256 * (crc8 bs).toNat)) bs
        (if crc8 bs = crc then .matched else .mismatch) := by
  have hcrc : byteAt (bs ++ [crc]) bs.length = crc := by simp [byteAt]
  rw [scratchResponse, List.take_left, hcrc, scratchValue_eq_ofNat]
  rfl

/-- Settles O52: both requests are one read of the data bytes and the checksum, each at its address. -/
theorem scratchReadsReportTheChecksum : Obligations.ScratchReadsReportTheChecksum := by
  intro s i addr n hi hs
  have hx : exec i s = readN addr (n + 1) (fun bs t => t.finish (scratchResponse n bs)) s := by
    obtain ⟨rfl, rfl, rfl⟩ | ⟨rfl, rfl, rfl⟩ := hi
    · exact perform_body hs nofun
    · exact perform_body hs nofun
  refine ⟨fun bs crc rest hlen ha => ?_, readRaises_of_readN hs hx⟩
  rw [← scratchResponse_append, hlen]
  exact exec_of_readN hs hx (by simp [hlen]) ha

/-! ### LAST_ERROR -/

/-- The response of LAST_ERROR is not classified: the register stays (60_exceptions.md R222). -/
theorem emit_lastError {s : State} {pos : Pos} (hs : s.phase = .run .lastError pos) (r : Response) :
    s.emit r = responded s r := by
  rw [State.emit, hs, Phase.nextLastError_lastError]
  rfl

/-- Settles O53, by the status the register holds. -/
theorem lastErrorIsReadUnchanged : Obligations.LastErrorIsReadUnchanged := by
  intro s hs
  refine (perform_respondNow hs _).trans ?_
  rw [emit_lastError hs]
  refine congrArg (fun code => Host.Outcome.next (responded s (okResponse code [] .notChecked))) ?_
  cases s.lastError <;> rfl

end Sys2Proof.Machine
end

section
/-! SUPPORT. Proofs of the statements on the single steps of the EEPROM requests and of the waits (42_wait_eeprom.md
R190 to R201). Every EEPROM request is first tied to one command write and every waiting request to one wait engine;
each step is then said once for all of them. -/

namespace Sys2Proof.Machine

/-! ### What each request takes from the EEPROM sequence and the wait engine -/

/-- At its start an EEPROM request writes its code, and waits if it has a wait (42_wait_eeprom.md R195). -/
theorem exec_eeCommand {i : Instr} {s : State} {code : Byte} (hs : s.phase = .run i .start)
    (hcode : eeCode s.params i = some code) :
    exec i s = memWrite Addr.eeCmd [code] (afterEeCommand code (waitOf i).isSome) s := by
  cases i with
  | eeCopyPage wait | eeRecallPage wait | eeFullRecall wait | eeSoftReset wait =>
    cases hcode
    cases wait with
    | true => exact perform_body hs nofun
    | false => exact perform_body hs nofun
  | _ => cases hcode

/-- Every waiting request enters its wait by the wait engine, with the busy bit and the timeout it names
(42_wait_eeprom.md R190, R195, R200, R201). -/
theorem exec_waitEntry {i : Instr} {s : State} {bit : WaitBit} {timeout : Word32}
    (hwaits : waitOf i = some (bit, timeout)) (hs : s.phase = .run i (waitEntry i)) :
    exec i s = waitEnter bit timeout s := by
  cases i with
  | eeCopyPage wait | eeRecallPage wait | eeFullRecall wait | eeSoftReset wait =>
    cases wait with
    | true =>
      cases hwaits
      exact perform_body hs nofun
    | false => cases hwaits
  | waitConversion | waitEeprom =>
    cases hwaits
    exact perform_body hs nofun
  | _ => cases hwaits

/-- The value of a waiting request: its code if it sends one, else 0 (42_wait_eeprom.md R195, R200, R201). -/
def waitValue (p : Params) (i : Instr) : Word32 :=
  match eeCode p i with
  | some code => code.setWidth 32
  | none => 0

/-- What the waiting request `i` does with the last status byte `b` (42_wait_eeprom.md R195, R200, R201). -/
def endWait (p : Params) (i : Instr) (b : Byte) (t : State) : State :=
  (if isEeprom i then t.setEe .done else t).finish (.result (waitValue p i) [b])

/-- Every waiting request takes its steps inside the loop from the wait engine, watching the busy bit it names. -/
theorem exec_waitLoop_eq {i : Instr} {s : State} {pos : Pos} {bit : WaitBit} {timeout : Word32}
    (hwaits : waitOf i = some (bit, timeout)) (hs : s.phase = .run i pos) (hpos : pos.inWaitLoop = true) :
    exec i s = waitLoop bit (endWait s.params i) pos s := by
  have hr : ∀ r, pos ≠ .respond r := by rintro r rfl; cases hpos
  cases i with
  | eeCopyPage wait | eeRecallPage wait | eeFullRecall wait | eeSoftReset wait =>
    cases wait with
    | true =>
      cases hwaits
      exact (perform_body hs hr).trans (eeSequence_inWaitLoop hpos _ _ _ s)
    | false => cases hwaits
  | waitConversion | waitEeprom =>
    cases hwaits
    exact (perform_body hs hr).trans (waitAlone_inWaitLoop hpos _ _ s)
  | _ => cases hwaits

/-! ### The state after one primitive that also writes WAIT or EE_STATE -/

theorem moveTo_setEe_answered_eq_after {s : State} {i : Instr} {pos q : Pos} {rest : List Answer} {e : Event}
    (hs : s.phase = .run i pos) (ee : EeState) :
    ((s.answered rest e).setEe ee).moveTo q = { after s i rest e q with ee := ee } :=
  congrArg (State.setEe · ee) (moveTo_answered_eq_after hs)

theorem moveTo_setWait_answered_eq_after {s : State} {i : Instr} {pos q : Pos} {rest : List Answer} {e : Event}
    (hs : s.phase = .run i pos) (w : Wait) :
    ((s.answered rest e).setWait w).moveTo q = { after s i rest e q with wait := some w } :=
  congrArg (State.setWait · w) (moveTo_answered_eq_after hs)

theorem raise_setWait_answered_eq_after {s : State} {i : Instr} {pos : Pos} {rest : List Answer} {e : Event}
    (hs : s.phase = .run i pos) (w : Wait) (st : Status) :
    ((s.answered rest e).setWait w).raise st =
      { after s i rest e (.respond (errorResponse st)) with wait := some w } :=
  moveTo_setWait_answered_eq_after hs w

/-- The end of a wait in READY: only EE_STATE of an EEPROM request is written besides WAIT (42_wait_eeprom.md R191,
R195). -/
theorem endWait_setWait_answered_eq_after {s : State} {i : Instr} {pos : Pos} {rest : List Answer} {e : Event}
    (hs : s.phase = .run i pos) (p : Params) (b : Byte) (w : Wait) :
    endWait p i b ((s.answered rest e).setWait w) =
      { after s i rest e (.respond (okResponse (waitValue p i) [b] .notChecked)) with
        wait := some w, ee := if isEeprom i then .done else s.ee } := by
  have hfinish := moveTo_setWait_answered_eq_after (rest := rest) (e := e)
    (q := .respond (okResponse (waitValue p i) [b] .notChecked)) hs w
  cases heeprom : isEeprom i with
  | true =>
    rw [endWait, if_pos heeprom]
    exact congrArg (State.setEe · .done) hfinish
  | false =>
    rw [endWait, if_neg (by simp [heeprom])]
    exact hfinish

/-! ### The command write and the entry of a wait -/

/-- Settles O54, by the answer of the command write and whether the request waits. -/
theorem eepromCommandIsSent : Obligations.EepromCommandIsSent := by
  intro s i code hcode hs
  refine ⟨fun rest ha => ?_, fun rest ha => ?_⟩ <;> rw [exec_eeCommand hs hcode, memWrite_answered ha]
  · cases (waitOf i).isSome with
    | true => exact congrArg _ (moveTo_setEe_answered_eq_after hs .polling)
    | false => exact congrArg _ (moveTo_setEe_answered_eq_after hs .done)
  · exact congrArg _ (moveTo_setEe_answered_eq_after hs .idle)

/-- Settles O55, from the entry of the wait engine. -/
theorem waitEntryRecordsTheStart : Obligations.WaitEntryRecordsTheStart := by
  intro s i bit timeout t0 rest hwaits hs ha
  rw [exec_waitEntry hwaits hs, waitEnter, now_answered ha, moveTo_setWait_answered_eq_after hs]

/-! ### One poll -/

section
variable {i : Instr} {s : State} {bit : WaitBit} {timeout : Word32} {w : Wait} {rest : List Answer}

theorem exec_waitPoll_answered {a : ReadAnswer} (hwaits : waitOf i = some (bit, timeout))
    (hs : s.phase = .run i .waitPoll) (hw : s.wait = some w) (ha : s.answers = .read a :: rest)
    (hfits : a.fits 1 = true) :
    exec i s = .next (afterPoll bit (endWait s.params i) w a (s.answered rest (.memRead 0x03 1 a))) := by
  simp only [exec_waitLoop_eq hwaits hs rfl, waitLoop, hw]
  exact memRead_answered ha hfits

theorem exec_waitPoll_busy {b : Byte} (hwaits : waitOf i = some (bit, timeout)) (hs : s.phase = .run i .waitPoll)
    (hw : s.wait = some w) (ha : s.answers = .read (.bytes [b]) :: rest) (hbusy : b.getLsbD bit.pos = true) :
    exec i s = .next (after s i rest (.memRead 0x03 1 (.bytes [b])) .waitClock) := by
  rw [exec_waitPoll_answered hwaits hs hw ha rfl, ← moveTo_answered_eq_after hs]
  exact congrArg _ (if_pos hbusy)

theorem exec_waitPoll_clear {b : Byte} (hwaits : waitOf i = some (bit, timeout)) (hs : s.phase = .run i .waitPoll)
    (hw : s.wait = some w) (ha : s.answers = .read (.bytes [b]) :: rest) (hclear : b.getLsbD bit.pos = false) :
    exec i s = .next { after s i rest (.memRead 0x03 1 (.bytes [b]))
        (.respond (okResponse (waitValue s.params i) [b] .notChecked)) with
      wait := some { w with state := .ready }, ee := if isEeprom i then .done else s.ee } := by
  rw [exec_waitPoll_answered hwaits hs hw ha rfl, ← endWait_setWait_answered_eq_after hs]
  exact congrArg _ (if_neg (by simp [waitBusy, byteAt, hclear]))

theorem exec_waitClock_answered {t : Nat} (hwaits : waitOf i = some (bit, timeout))
    (hs : s.phase = .run i .waitClock) (hw : s.wait = some w) (ha : s.answers = .time t :: rest) :
    exec i s = .next (if w.timeout.toNat < t - w.start then
        { after s i rest (.now t) (.respond (errorResponse .timeout)) with
          wait := some { w with state := .timedOut } }
      else after s i rest (.now t) .waitPause) := by
  simp only [exec_waitLoop_eq hwaits hs rfl, waitLoop, hw, now_answered ha, afterClock, gt_iff_lt,
    raise_setWait_answered_eq_after hs, moveTo_answered_eq_after hs]

theorem exec_waitPause_answered (hwaits : waitOf i = some (bit, timeout)) (hs : s.phase = .run i .waitPause)
    (hw : s.wait = some w) (ha : s.answers = .slept :: rest) :
    exec i s = .next (after s i rest (.sleep 1) .waitPoll) := by
  simp only [exec_waitLoop_eq hwaits hs rfl, waitLoop, hw, sleep_answered ha, Config.pollIntervalMs,
    moveTo_answered_eq_after hs]

end

/-- Settles O56, one equation of the wait engine for each answer at each position. -/
theorem waitPollsInOrder : Obligations.WaitPollsInOrder := by
  intro s i bit timeout w hwaits hw
  refine ⟨fun hs => ⟨fun rest ha => ?_, fun rest ha => ?_, fun b rest ha hbusy => ?_, fun b rest ha hclear => ?_⟩,
    fun hs t rest ha => ?_, fun hs rest ha => ?_⟩
  · rw [exec_waitPoll_answered hwaits hs hw ha rfl, afterPoll, raise_setWait_answered_eq_after hs]
  · rw [exec_waitPoll_answered hwaits hs hw ha rfl, ← raise_setWait_answered_eq_after hs]
    rfl
  · exact exec_waitPoll_busy hwaits hs hw ha hbusy
  · exact exec_waitPoll_clear hwaits hs hw ha hclear
  · exact exec_waitClock_answered hwaits hs hw ha
  · exact exec_waitPause_answered hwaits hs hw ha

end Sys2Proof.Machine
end

section
/-! SUPPORT. Proofs of the statements on a wait whose status stays busy (42_wait_eeprom.md R193; 60_exceptions.md R228).
The run is cut at the first reading above the timeout: the polls before it go round the loop, the poll that reads it
ends the wait. The clock contract bounds how late that reading comes, the ideal clock says when. -/

namespace Sys2Proof.Machine

/-! ### The events of a wait -/

/-- The events of polls that find the busy bit set and the timeout not passed (42_wait_eeprom.md R190). -/
def pollEvents (polls : List (Byte × Nat)) : List Event :=
  polls.flatMap fun p => [.memRead 0x03 1 (.bytes [p.1]), .now p.2, .sleep 1]

/-- The events of a wait from `t0` that times out: `before` go round the loop, then the status `b` is busy and the
reading `t` is above the timeout (42_wait_eeprom.md R190). -/
def timeoutEvents (t0 : Nat) (before : List (Byte × Nat)) (b : Byte) (t : Nat) : List Event :=
  .now t0 :: (pollEvents before ++ [.memRead 0x03 1 (.bytes [b]), .now t])

theorem pollEvents_cons (p : Byte × Nat) (ps : List (Byte × Nat)) :
    pollEvents (p :: ps) = .memRead 0x03 1 (.bytes [p.1]) :: .now p.2 :: .sleep 1 :: pollEvents ps := rfl

theorem readCount_append (xs ys : List Event) : readCount (xs ++ ys) = readCount xs + readCount ys :=
  List.countP_append

theorem sleepCount_append (xs ys : List Event) : sleepCount (xs ++ ys) = sleepCount xs + sleepCount ys :=
  List.countP_append

@[simp] theorem readCount_pollEvents (ps : List (Byte × Nat)) : readCount (pollEvents ps) = ps.length := by
  induction ps with
  | nil => rfl
  | cons p ps ih => simpa [pollEvents_cons, readCount] using ih

@[simp] theorem sleepCount_pollEvents (ps : List (Byte × Nat)) : sleepCount (pollEvents ps) = ps.length := by
  induction ps with
  | nil => rfl
  | cons p ps ih => simpa [pollEvents_cons, sleepCount] using ih

theorem readCount_timeoutEvents (t0 : Nat) (before : List (Byte × Nat)) (b : Byte) (t : Nat) :
    readCount (timeoutEvents t0 before b t) = before.length + 1 :=
  calc readCount (timeoutEvents t0 before b t)
    _ = readCount (pollEvents before ++ [.memRead 0x03 1 (.bytes [b]), .now t]) := by
      simp [timeoutEvents, readCount]
    _ = before.length + 1 := by rw [readCount_append, readCount_pollEvents]; rfl

theorem sleepCount_timeoutEvents (t0 : Nat) (before : List (Byte × Nat)) (b : Byte) (t : Nat) :
    sleepCount (timeoutEvents t0 before b t) = before.length :=
  calc sleepCount (timeoutEvents t0 before b t)
    _ = sleepCount (pollEvents before ++ [.memRead 0x03 1 (.bytes [b]), .now t]) := by
      simp [timeoutEvents, sleepCount]
    _ = before.length := by rw [sleepCount_append, sleepCount_pollEvents]; rfl

theorem getLast?_timeoutEvents (t0 : Nat) (before : List (Byte × Nat)) (b : Byte) (t : Nat) :
    (timeoutEvents t0 before b t).getLast? = some (.now t) := by
  simp [timeoutEvents, List.getLast?_cons]

/-! ### The run of a busy wait -/

/-- Request `i` stands at position `pos` of its wait `w` in `s`, the answers `as` to come. -/
structure Waits (i : Instr) (w : Wait) (pos : Pos) (as : List Answer) (s : State) : Prop where
  watches : waitOf i = some (w.bit, w.timeout)
  phase : s.phase = .run i pos
  wait : s.wait = some w
  answers : s.answers = as

/-- `u` has the TIMEOUT response of request `i` due at the end of the wait `w`, the events `done` after those
of `s`. -/
structure TimedOutAfter (i : Instr) (w : Wait) (done : List Event) (s u : State) : Prop where
  phase : u.phase = .run i (.respond (errorResponse .timeout))
  wait : u.wait = some { w with state := .timedOut }
  trace : u.trace = s.trace ++ done

theorem pollScript_append (ps qs : List (Byte × Nat)) : pollScript (ps ++ qs) = pollScript ps ++ pollScript qs := by
  induction ps with
  | nil => rfl
  | cons p ps ih =>
    obtain ⟨b, t⟩ := p
    simp [pollScript, ih]

section
variable {i : Instr} {w : Wait} {s : State} {as : List Answer}

/-- A step that takes one answer and only moves on stays in the wait. -/
theorem Waits.step_after {pos q : Pos} {a : Answer} {e : Event} (h : Waits i w pos (a :: as) s)
    (hexec : exec i s = .next (after s i as e q)) :
    ∃ u, step s = .next u ∧ Waits i w q as u ∧ u.trace = s.trace ++ [e] :=
  ⟨_, (step_run h.phase).trans hexec, ⟨h.watches, rfl, h.wait, rfl⟩, rfl⟩

theorem Waits.step_busy {b : Byte} (h : Waits i w .waitPoll (.read (.bytes [b]) :: as) s)
    (hbusy : b.getLsbD w.bit.pos = true) :
    ∃ u, step s = .next u ∧ Waits i w .waitClock as u ∧ u.trace = s.trace ++ [.memRead 0x03 1 (.bytes [b])] :=
  h.step_after (exec_waitPoll_busy h.watches h.phase h.wait h.answers hbusy)

theorem Waits.step_within {t : Nat} (h : Waits i w .waitClock (.time t :: as) s)
    (hwithin : t - w.start ≤ w.timeout.toNat) :
    ∃ u, step s = .next u ∧ Waits i w .waitPause as u ∧ u.trace = s.trace ++ [.now t] :=
  h.step_after
    ((exec_waitClock_answered h.watches h.phase h.wait h.answers).trans (congrArg _ (if_neg hwithin.not_gt)))

theorem Waits.step_pause (h : Waits i w .waitPause (.slept :: as) s) :
    ∃ u, step s = .next u ∧ Waits i w .waitPoll as u ∧ u.trace = s.trace ++ [.sleep 1] :=
  h.step_after (exec_waitPause_answered h.watches h.phase h.wait h.answers)

theorem Waits.step_expired {t : Nat} (h : Waits i w .waitClock (.time t :: as) s)
    (hexpired : w.timeout.toNat < t - w.start) : ∃ u, step s = .next u ∧ TimedOutAfter i w [.now t] s u :=
  ⟨_, (step_run h.phase).trans ((exec_waitClock_answered h.watches h.phase h.wait h.answers).trans
    (congrArg _ (if_pos hexpired))), rfl, rfl, rfl⟩

/-- A busy poll within the timeout takes three steps and comes back to the next poll. -/
theorem Waits.steps_within {b : Byte} {t : Nat}
    (h : Waits i w .waitPoll (.read (.bytes [b]) :: .time t :: .slept :: as) s)
    (hbusy : b.getLsbD w.bit.pos = true) (hwithin : t - w.start ≤ w.timeout.toNat) :
    ∃ u, Waits i w .waitPoll as u ∧ u.trace = s.trace ++ pollEvents [(b, t)] ∧
      ∀ n, steps (n + 3) s = steps n u := by
  obtain ⟨s₁, hpoll, h₁, htrace₁⟩ := h.step_busy hbusy
  obtain ⟨s₂, hclock, h₂, htrace₂⟩ := h₁.step_within hwithin
  obtain ⟨s₃, hpause, h₃, htrace₃⟩ := h₂.step_pause
  exact ⟨s₃, h₃, by simp [htrace₃, htrace₂, htrace₁, pollEvents], fun n => by
    rw [steps_succ hpoll, steps_succ hclock, steps_succ hpause]⟩

/-- A busy poll above the timeout takes two steps and ends the wait (42_wait_eeprom.md R191, R192). -/
theorem Waits.steps_expired {b : Byte} {t : Nat}
    (h : Waits i w .waitPoll (.read (.bytes [b]) :: .time t :: as) s) (hbusy : b.getLsbD w.bit.pos = true)
    (hexpired : w.timeout.toNat < t - w.start) :
    ∃ u, steps 2 s = .next u ∧ TimedOutAfter i w [.memRead 0x03 1 (.bytes [b]), .now t] s u := by
  obtain ⟨s₁, hpoll, h₁, htrace₁⟩ := h.step_busy hbusy
  obtain ⟨u, hclock, hphase, hwait, htrace⟩ := h₁.step_expired hexpired
  exact ⟨u, (steps_succ hpoll 1).trans (steps_succ hclock 0), hphase, hwait, by simp [htrace, htrace₁]⟩

/-- Busy polls within the timeout go round the loop, three steps each. -/
theorem Waits.steps_all_within {before : List (Byte × Nat)}
    (h : Waits i w .waitPoll (pollScript before ++ as) s)
    (hbusy : allBusy w.bit before = true) (hwithin : ∀ p ∈ before, p.2 - w.start ≤ w.timeout.toNat) :
    ∃ u, Waits i w .waitPoll as u ∧ u.trace = s.trace ++ pollEvents before ∧
      ∀ n, steps (n + 3 * before.length) s = steps n u := by
  induction before generalizing s with
  | nil => exact ⟨s, h, (List.append_nil _).symm, fun _ => rfl⟩
  | cons p ps ih =>
    obtain ⟨b, t⟩ := p
    obtain ⟨hb, hbs⟩ : b.getLsbD w.bit.pos = true ∧ allBusy w.bit ps = true := by simpa [allBusy] using hbusy
    obtain ⟨hp, hps⟩ := List.forall_mem_cons.mp hwithin
    obtain ⟨u, hu, htrace, hsteps⟩ := h.steps_within hb hp
    obtain ⟨v, hv, htrace', hsteps'⟩ := ih hu hbs hps
    refine ⟨v, hv, by rw [htrace', htrace, List.append_assoc]; rfl, fun n => ?_⟩
    rw [← hsteps' n, ← hsteps]
    rfl

end

theorem step_waitEntry {i : Instr} {bit : WaitBit} {timeout : Word32} {t0 : Nat} {as : List Answer} {s : State}
    (hwaits : waitOf i = some (bit, timeout)) (hs : s.phase = .run i (waitEntry i))
    (ha : s.answers = .time t0 :: as) :
    ∃ u, step s = .next u ∧ Waits i ⟨.polling, t0, timeout, bit⟩ .waitPoll as u ∧ u.trace = s.trace ++ [.now t0] :=
  ⟨_, (step_run hs).trans (waitEntryRecordsTheStart s i bit timeout t0 as hwaits hs ha), ⟨hwaits, rfl, rfl, rfl⟩, rfl⟩

/-- The whole wait, from its entry to the first reading above the timeout. -/
theorem steps_timeout {i : Instr} {bit : WaitBit} {timeout : Word32} {t0 t : Nat} {b : Byte}
    {before later : List (Byte × Nat)} {rest : List Answer} {s : State} (hwaits : waitOf i = some (bit, timeout))
    (hs : s.phase = .run i (waitEntry i))
    (ha : s.answers = .time t0 :: (pollScript (before ++ (b, t) :: later) ++ rest))
    (hbusy : allBusy bit (before ++ (b, t) :: later) = true)
    (hwithin : ∀ p ∈ before, p.2 - t0 ≤ timeout.toNat) (hexpired : timeout.toNat < t - t0) :
    ∃ u, steps (3 * (before.length + 1)) s = .next u ∧
      TimedOutAfter i ⟨.polling, t0, timeout, bit⟩ (timeoutEvents t0 before b t) s u := by
  obtain ⟨hbefore, hb, -⟩ : allBusy bit before = true ∧ b.getLsbD bit.pos = true ∧ allBusy bit later = true := by
    simpa [allBusy] using hbusy
  rw [pollScript_append, List.append_assoc] at ha
  obtain ⟨s₁, henter, h₁, htrace₁⟩ := step_waitEntry hwaits hs ha
  obtain ⟨s₂, h₂, htrace₂, hsteps⟩ := h₁.steps_all_within hbefore hwithin
  obtain ⟨u, hu, hphase, hwait, htrace⟩ := h₂.steps_expired hb hexpired
  refine ⟨u, ?_, hphase, hwait, by simp [htrace, htrace₂, htrace₁, timeoutEvents]⟩
  calc steps (3 * (before.length + 1)) s
    _ = steps (2 + 3 * before.length + 1) s := congrArg (steps · s) (by omega)
    _ = steps (2 + 3 * before.length) s₁ := steps_succ henter _
    _ = steps 2 s₂ := hsteps 2
    _ = .next u := hu

/-! ### The clock contract -/

/-- Under the clock contract enough polls hold a first reading above the timeout, and it comes no later than one poll
per millisecond. -/
theorem exists_first_expired {start timeout lo : Nat} {polls : List (Byte × Nat)}
    (hrising : risingFrom lo polls = true) (hlo : lo ≤ start + timeout + 1)
    (hlen : start + timeout + 1 < lo + polls.length) :
    ∃ before b t later, polls = before ++ (b, t) :: later ∧ (∀ p ∈ before, p.2 - start ≤ timeout) ∧
      timeout < t - start ∧ lo + before.length ≤ start + timeout + 1 := by
  induction polls generalizing lo with
  | nil => simp at hlen; omega
  | cons p ps ih =>
    obtain ⟨b, t⟩ := p
    obtain ⟨hle, hrest⟩ : lo ≤ t ∧ risingFrom (t + 1) ps = true := by simpa [risingFrom] using hrising
    rw [List.length_cons] at hlen
    by_cases hexpired : timeout < t - start
    · exact ⟨[], b, t, ps, rfl, nofun, hexpired, hlo⟩
    · obtain ⟨before, b', t', later, rfl, hwithin, hexpired', hbound⟩ := ih hrest (by omega) (by omega)
      refine ⟨(b, t) :: before, b', t', later, rfl, List.forall_mem_cons.mpr ⟨by omega, hwithin⟩, hexpired', ?_⟩
      rw [List.length_cons]
      omega

/-- A busy wait under the clock contract times out at the first reading above the timeout. -/
theorem busyWait_timesOut {i : Instr} {bit : WaitBit} {timeout : Word32} {t0 : Nat} {polls : List (Byte × Nat)}
    {rest : List Answer} {s : State} (hwaits : waitOf i = some (bit, timeout)) (hs : s.phase = .run i (waitEntry i))
    (ha : s.answers = .time t0 :: (pollScript polls ++ rest)) (hbusy : allBusy bit polls = true)
    (hrising : risingFrom t0 polls = true) (hlen : timeout.toNat + 2 ≤ polls.length) :
    ∃ before b t later u, polls = before ++ (b, t) :: later ∧ before.length ≤ timeout.toNat + 1 ∧
      timeout.toNat < t - t0 ∧ steps (3 * (before.length + 1)) s = .next u ∧
      TimedOutAfter i ⟨.polling, t0, timeout, bit⟩ (timeoutEvents t0 before b t) s u := by
  obtain ⟨before, b, t, later, rfl, hwithin, hexpired, hbound⟩ :=
    exists_first_expired (start := t0) (timeout := timeout.toNat) hrising (by omega) (by omega)
  obtain ⟨u, hu, htimedOut⟩ := steps_timeout hwaits hs ha hbusy hwithin hexpired
  exact ⟨before, b, t, later, u, rfl, by omega, hexpired, hu, htimedOut⟩

/-- Settles O57: the polls before the first reading above the timeout bound the steps, the reads and the sleeps. -/
theorem busyWaitTimesOut : Obligations.BusyWaitTimesOut := by
  intro s i bit timeout t0 polls rest hwaits hs ha hbusy hrising hlen
  obtain ⟨before, b, t, later, u, -, hbound, hexpired, hu, hphase, hwait, htrace⟩ :=
    busyWait_timesOut hwaits hs ha hbusy hrising hlen
  refine ⟨_, u, _, by omega, hu, hphase, hwait, htrace, ?_, ?_, t, getLast?_timeoutEvents t0 before b t, by omega⟩
  · rw [readCount_timeoutEvents]
    omega
  · rw [sleepCount_timeoutEvents]
    exact hbound

/-! ### The ideal clock -/

/-- An ideal clock keeps the clock contract. -/
theorem risingFrom_idealPolls (t : Nat) (bs : List Byte) : risingFrom t (idealPolls t bs) = true := by
  induction bs generalizing t with
  | nil => rfl
  | cons b bs ih => simp [idealPolls, risingFrom, ih]

@[simp] theorem length_idealPolls (t : Nat) (bs : List Byte) : (idealPolls t bs).length = bs.length := by
  induction bs generalizing t with
  | nil => rfl
  | cons b bs ih => simp [idealPolls, ih]

/-- On an ideal clock the reading of a poll counts the polls before it. -/
theorem idealPolls_eq_append {t c : Nat} {bs : List Byte} {before later : List (Byte × Nat)} {b : Byte}
    (h : idealPolls t bs = before ++ (b, c) :: later) : c = t + before.length := by
  induction bs generalizing t before with
  | nil => simp [idealPolls] at h
  | cons a as ih =>
    cases before with
    | nil =>
      obtain ⟨⟨-, rfl⟩, -⟩ : (a = b ∧ t = c) ∧ idealPolls (t + 1) as = later := by simpa [idealPolls] using h
      rfl
    | cons p ps =>
      obtain ⟨-, htail⟩ : (a, t) = p ∧ idealPolls (t + 1) as = ps ++ (b, c) :: later := List.cons.inj h
      rw [ih htail, List.length_cons]
      omega

/-- Settles O58: on an ideal clock the first reading above the timeout is that of poll T + 2. -/
theorem busyWaitWithIdealClockIsExact : Obligations.BusyWaitWithIdealClockIsExact := by
  intro s i bit timeout t0 status rest hwaits hs ha hbusy hlen
  obtain ⟨before, b, t, later, u, hpolls, hbound, hexpired, hu, hphase, -, htrace⟩ :=
    busyWait_timesOut hwaits hs ha hbusy (risingFrom_idealPolls t0 status) (by rw [length_idealPolls, hlen])
  obtain rfl : t = t0 + before.length := idealPolls_eq_append hpolls
  have hcount : before.length = timeout.toNat + 1 := by omega
  refine ⟨u, _, by rw [← hu, hcount], hphase, htrace, ?_, ?_, ?_⟩
  · rw [readCount_timeoutEvents, hcount]
  · rw [sleepCount_timeoutEvents, hcount]
  · rw [getLast?_timeoutEvents, hcount]
    rfl

end Sys2Proof.Machine
end

section
/-! SUPPORT. Proof of the statement that only the timeout test of a wait ends a request with TIMEOUT (42_wait_eeprom.md
R190, R193). Every other primitive of every request leaves no TIMEOUT response due; that is said once for each shared
operation and then of the requests by a walk over them. -/

namespace Sys2Proof.Machine

/-! ### States with no TIMEOUT response due -/

/-- No response of status TIMEOUT is due in `u`. -/
def NoTimeoutDue (u : State) : Prop := ∀ i r, u.phase = .run i (.respond r) → r.status ≠ .timeout

theorem noTimeoutDue_moveTo (u : State) {q : Pos} (hq : ∀ r, q = .respond r → r.status ≠ .timeout) :
    NoTimeoutDue (u.moveTo q) := by
  intro i r hphase
  cases hu : u.phase with
  | run j pos =>
    rw [State.moveTo_phase, hu, Phase.moveTo_run] at hphase
    obtain ⟨-, rfl⟩ := Phase.run.inj hphase
    exact hq r rfl
  | idle | runIllegal op =>
    rw [State.moveTo_phase, hu] at hphase
    cases hphase

theorem noTimeoutDue_finish {r : Response} (hr : r.status ≠ .timeout) (u : State) : NoTimeoutDue (u.finish r) :=
  noTimeoutDue_moveTo u fun _ h => Pos.respond.inj h ▸ hr

theorem noTimeoutDue_moves (u : State) {q : Pos} (hq : ∀ r, q ≠ .respond r) : NoTimeoutDue (u.moveTo q) :=
  noTimeoutDue_moveTo u fun r hr => absurd hr (hq r)

theorem noTimeoutDue_raise {e : Status} (he : e ≠ .timeout) (u : State) : NoTimeoutDue (u.raise e) :=
  noTimeoutDue_finish he u

theorem noTimeoutDue_of_run {s : State} {i : Instr} {pos : Pos} (hs : s.phase = .run i pos)
    (hpos : ∀ r, pos ≠ .respond r) : NoTimeoutDue s := by
  intro j r hr
  obtain ⟨-, rfl⟩ := Phase.run.inj (hs.symm.trans hr)
  exact absurd rfl (hpos r)

theorem noTimeoutDue_of_respondNow {r : Response} {s t : State} (ht : respondNow r s = .next t) :
    NoTimeoutDue t := by
  cases ht
  intro i q hphase
  cases hphase

/-! ### The shared operations -/

section
variable {s t : State}

theorem noTimeoutDue_memRead {addr : Byte} {n : Nat} {k : ReadAnswer → State → State} (hs : NoTimeoutDue s)
    (hk : ∀ a u, NoTimeoutDue (k a u)) (ht : memRead addr n k s = .next t) : NoTimeoutDue t := by
  obtain ⟨-, rfl⟩ | ⟨a, _, -, -, rfl⟩ := memRead_next ht
  · exact hs
  · exact hk a _

theorem noTimeoutDue_memWrite {addr : Byte} {bytes : List Byte} {k : Bool → State → State} (hs : NoTimeoutDue s)
    (hk : ∀ ok u, NoTimeoutDue (k ok u)) (ht : memWrite addr bytes k s = .next t) : NoTimeoutDue t := by
  obtain ⟨-, rfl⟩ | ⟨ok, _, -, rfl⟩ := memWrite_next ht
  · exact hs
  · exact hk ok _

theorem noTimeoutDue_sleep {d : Nat} {q : Pos} (hs : NoTimeoutDue s) (hq : ∀ r, q ≠ .respond r)
    (ht : sleep d (·.moveTo q) s = .next t) : NoTimeoutDue t := by
  obtain ⟨-, rfl⟩ | ⟨_, -, rfl⟩ := sleep_next ht
  · exact hs
  · exact noTimeoutDue_moves _ hq

theorem noTimeoutDue_readN {addr : Byte} {n : Nat} {k : List Byte → State → State} (hs : NoTimeoutDue s)
    (hk : ∀ bs u, NoTimeoutDue (k bs u)) (ht : readN addr n k s = .next t) : NoTimeoutDue t := by
  obtain ⟨-, rfl⟩ | ⟨_, -, rfl⟩ | ⟨_, _, -, -, rfl⟩ | ⟨bs, _, -, -, rfl⟩ := readN_next ht
  · exact hs
  · exact noTimeoutDue_raise (by decide) _
  · exact noTimeoutDue_raise (by decide) _
  · exact hk bs _

theorem noTimeoutDue_writeN {addr : Byte} {bytes : List Byte} {k : State → State} (hs : NoTimeoutDue s)
    (hk : ∀ u, NoTimeoutDue (k u)) (ht : writeN addr bytes k s = .next t) : NoTimeoutDue t := by
  obtain ⟨-, rfl⟩ | ⟨_, -, rfl⟩ | ⟨_, -, rfl⟩ := writeN_next ht
  · exact hs
  · exact noTimeoutDue_raise (by decide) _
  · exact hk _

theorem noTimeoutDue_readN_finish {addr : Byte} {n : Nat} {f : List Byte → Response} (hs : NoTimeoutDue s)
    (hf : ∀ bs, (f bs).status ≠ .timeout) (ht : readN addr n (fun bs u => u.finish (f bs)) s = .next t) :
    NoTimeoutDue t :=
  noTimeoutDue_readN hs (fun bs u => noTimeoutDue_finish (hf bs) u) ht

theorem noTimeoutDue_writeByte {addr b : Byte} (hs : NoTimeoutDue s) (ht : writeByte addr b s = .next t) :
    NoTimeoutDue t :=
  noTimeoutDue_writeN hs (fun u => noTimeoutDue_finish (by simp) u) ht

theorem noTimeoutDue_setLimit {addr : Byte} {c : Word32} (hs : NoTimeoutDue s) (ht : setLimit addr c s = .next t) :
    NoTimeoutDue t := by
  unfold setLimit at ht
  split at ht
  · exact noTimeoutDue_of_respondNow ht
  · exact noTimeoutDue_writeN hs (fun u => noTimeoutDue_finish (by simp) u) ht

theorem noTimeoutDue_waitEnter {bit : WaitBit} {timeout : Word32} (hs : NoTimeoutDue s)
    (ht : waitEnter bit timeout s = .next t) : NoTimeoutDue t := by
  obtain ⟨-, rfl⟩ | ⟨_, _, -, rfl⟩ := waitEnter_next ht
  · exact hs
  · exact noTimeoutDue_moves _ (by nofun)

theorem noTimeoutDue_afterPoll {bit : WaitBit} {ready : Byte → State → State}
    (hready : ∀ b u, NoTimeoutDue (ready b u)) (w : Wait) (a : ReadAnswer) (u : State) :
    NoTimeoutDue (afterPoll bit ready w a u) := by
  obtain ⟨-, h⟩ | ⟨-, h⟩ | ⟨_, _, -, -, h⟩ | ⟨b, _, -, -, h⟩ := afterPoll_cases bit ready w a u <;> rw [h]
  · exact noTimeoutDue_raise (by decide) _
  · exact noTimeoutDue_raise (by decide) _
  · exact noTimeoutDue_moves u (by nofun)
  · exact hready b _

/-- Inside the loop of a wait, the timeout test apart. -/
theorem noTimeoutDue_waitLoop {bit : WaitBit} {ready : Byte → State → State} {pos : Pos} (hs : NoTimeoutDue s)
    (hclock : pos ≠ .waitClock) (hready : ∀ b u, NoTimeoutDue (ready b u))
    (ht : waitLoop bit ready pos s = .next t) : NoTimeoutDue t := by
  obtain ⟨w, -, ⟨-, hread⟩ | ⟨hpos, -⟩ | ⟨-, hsleep⟩⟩ := waitLoop_next ht
  · exact noTimeoutDue_memRead hs (noTimeoutDue_afterPoll hready w) hread
  · exact absurd hpos hclock
  · exact noTimeoutDue_sleep hs (by nofun) hsleep

theorem noTimeoutDue_afterEeCommand (code : Byte) (wait ok : Bool) (u : State) :
    NoTimeoutDue (afterEeCommand code wait ok u) := by
  obtain ⟨-, h⟩ | ⟨-, -, h⟩ | ⟨-, -, h⟩ := afterEeCommand_cases code wait ok u <;> rw [h]
  · exact noTimeoutDue_raise (by decide) _
  · exact noTimeoutDue_finish (by simp) _
  · exact noTimeoutDue_moves _ (by nofun)

theorem noTimeoutDue_eeSequence {code : Byte} {wait : Bool} {timeout : Word32} {pos : Pos} (hs : NoTimeoutDue s)
    (hclock : pos ≠ .waitClock) (ht : eeSequence code wait timeout pos s = .next t) : NoTimeoutDue t := by
  obtain ⟨-, hwrite⟩ | ⟨-, hnow⟩ | ⟨-, -, hloop⟩ := eeSequence_next ht
  · exact noTimeoutDue_memWrite hs (noTimeoutDue_afterEeCommand code wait) hwrite
  · exact noTimeoutDue_waitEnter hs hnow
  · exact noTimeoutDue_waitLoop hs hclock (fun _ _ => noTimeoutDue_finish (by simp) _) hloop

theorem noTimeoutDue_waitAlone {bit : WaitBit} {timeout : Word32} {pos : Pos} (hs : NoTimeoutDue s)
    (hclock : pos ≠ .waitClock) (ht : waitAlone bit timeout pos s = .next t) : NoTimeoutDue t := by
  obtain ⟨-, hnow⟩ | ⟨-, hloop⟩ := waitAlone_next ht
  · exact noTimeoutDue_waitEnter hs hnow
  · exact noTimeoutDue_waitLoop hs hclock (fun _ _ => noTimeoutDue_finish (by simp) _) hloop

/-! ### The requests of several primitives -/

theorem noTimeoutDue_readTempBody {wait checked : Bool} {pos : Pos} (hs : NoTimeoutDue s)
    (ht : readTempBody wait checked pos s = .next t) : NoTimeoutDue t := by
  have htransfer (h : readTempTransfer checked s = .next t) : NoTimeoutDue t :=
    noTimeoutDue_readN_finish (f := readTempResponse checked) hs (by simp [readTempResponse]) h
  cases pos with
  | start =>
    cases wait with
    | true => exact noTimeoutDue_sleep (d := latency s.cfg) (q := .delayed) hs nofun ht
    | false => exact htransfer ht
  | delayed => exact htransfer ht
  | _ => cases ht

theorem singleShotResponse_status_ne_timeout (bs : List Byte) : (singleShotResponse bs).status ≠ .timeout := by
  unfold singleShotResponse
  split <;> simp

theorem noTimeoutDue_singleShotBody {pos : Pos} (hs : NoTimeoutDue s) (ht : singleShotBody pos s = .next t) :
    NoTimeoutDue t := by
  cases pos with
  | start => exact noTimeoutDue_writeN hs (fun _ => noTimeoutDue_moves _ (by nofun)) ht
  | triggered => exact noTimeoutDue_sleep (d := latency s.cfg) (q := .delayed) hs nofun ht
  | delayed => exact noTimeoutDue_readN_finish hs singleShotResponse_status_ne_timeout ht
  | _ => cases ht

theorem noTimeoutDue_heaterBody {f : Byte → Byte} {pos : Pos} (hs : NoTimeoutDue s)
    (ht : heaterBody f pos s = .next t) : NoTimeoutDue t := by
  cases pos with
  | start => exact noTimeoutDue_readN hs (fun _ u => noTimeoutDue_moves u (by nofun)) ht
  | commandRead b => exact noTimeoutDue_writeByte hs ht
  | _ => cases ht

theorem isBusyResponse_status_ne_timeout (a : ReadAnswer) : (isBusyResponse a).status ≠ .timeout := by
  cases a with
  | fail => nofun
  | bytes bs =>
    simp only [isBusyResponse]
    split <;> simp [busyOnFailure]

end

/-! ### One step of the machine -/

/-- A running request leaves no TIMEOUT response due but by the timeout test. -/
theorem exec_noTimeoutDue {i : Instr} {pos : Pos} {s t : State} (hrun : s.phase = .run i pos)
    (hpos : ∀ r, pos ≠ .respond r) (hclock : pos ≠ .waitClock) (ht : exec i s = .next t) : NoTimeoutDue t := by
  have hs : NoTimeoutDue s := noTimeoutDue_of_run hrun hpos
  cases i with
  | readTemp => exact noTimeoutDue_readTempBody hs (body_next hrun hpos ht)
  | singleShot => exact noTimeoutDue_singleShotBody hs (body_next hrun hpos ht)
  | heaterOn | heaterOff => exact noTimeoutDue_heaterBody hs (body_next hrun hpos ht)
  | eeCopyPage | eeRecallPage | eeFullRecall | eeSoftReset =>
    exact noTimeoutDue_eeSequence hs hclock (body_next hrun hpos ht)
  | waitConversion | waitEeprom => exact noTimeoutDue_waitAlone hs hclock (body_next hrun hpos ht)
  | encCmd | decCmd | encCfg | decCfg | decStatus | encAlert | decAlert | decRaw | rawToC | cToRaw | crc8Upd
  | lastError =>
    obtain ⟨-, hfirst⟩ := atStart_next (body_next hrun hpos ht)
    exact noTimeoutDue_of_respondNow hfirst
  | configure | setMode =>
    obtain ⟨-, hfirst⟩ := atStart_next (body_next hrun hpos ht)
    exact noTimeoutDue_writeN hs (fun _ => noTimeoutDue_finish (by simp) _) hfirst
  | readStatus | getAlertMode | getHighLimit | getLowLimit | readDeviceId | readRomCode =>
    obtain ⟨-, hfirst⟩ := atStart_next (body_next hrun hpos ht)
    exact noTimeoutDue_readN_finish hs (by simp) hfirst
  | readScratch | readScratchExt =>
    obtain ⟨-, hfirst⟩ := atStart_next (body_next hrun hpos ht)
    exact noTimeoutDue_readN_finish hs (by simp [scratchResponse]) hfirst
  | isBusy =>
    obtain ⟨-, hfirst⟩ := atStart_next (body_next hrun hpos ht)
    exact noTimeoutDue_memRead hs (fun a u => noTimeoutDue_finish (isBusyResponse_status_ne_timeout a) u) hfirst
  | setAlertMode | setParasitic =>
    obtain ⟨-, hfirst⟩ := atStart_next (body_next hrun hpos ht)
    exact noTimeoutDue_writeByte hs hfirst
  | setHighLimit | setLowLimit =>
    obtain ⟨-, hfirst⟩ := atStart_next (body_next hrun hpos ht)
    exact noTimeoutDue_setLimit hs hfirst
  | readUserReg =>
    obtain ⟨-, hfirst⟩ := atStart_next (body_next hrun hpos ht)
    split at hfirst
    · exact noTimeoutDue_readN_finish hs (by simp) hfirst
    · exact noTimeoutDue_of_respondNow hfirst
  | writeUserReg =>
    obtain ⟨-, hfirst⟩ := atStart_next (body_next hrun hpos ht)
    split at hfirst
    · exact noTimeoutDue_writeByte hs hfirst
    · exact noTimeoutDue_of_respondNow hfirst

/-- All that the timeout test of a wait can do (42_wait_eeprom.md R190, R192). -/
theorem exec_waitClock_next {i : Instr} {s t : State} {w : Wait} {bit : WaitBit} {timeout : Word32}
    (hwaits : waitOf i = some (bit, timeout)) (hs : s.phase = .run i .waitClock) (hw : s.wait = some w)
    (ht : exec i s = .next t) :
    t = s ∨ ∃ c rest, s.answers = .time c :: rest ∧
      (w.timeout.toNat < c - w.start ∧ t.phase = .run i (.respond (errorResponse .timeout)) ∨
        t.phase = .run i .waitPause) := by
  simp only [exec_waitLoop_eq hwaits hs rfl, waitLoop, hw] at ht
  obtain ⟨-, rfl⟩ | ⟨c, rest, ha, rfl⟩ := now_next ht
  · exact .inl rfl
  · obtain ⟨hexpired, heq⟩ | ⟨-, heq⟩ := afterClock_cases w c (s.answered rest (.now c))
    · exact .inr ⟨c, rest, ha, .inl ⟨hexpired, by rw [heq, raise_setWait_answered_eq_after hs]; rfl⟩⟩
    · exact .inr ⟨c, rest, ha, .inr (by rw [heq, moveTo_answered_eq_after hs]; rfl)⟩

/-- A step to a TIMEOUT response that was not due before is the timeout test of a running request. -/
theorem step_timeout_inv {s t : State} {i : Instr} {r : Response} (ht : step s = .next t)
    (hphase : t.phase = .run i (.respond r)) (hr : r.status = .timeout) (hne : s.phase ≠ t.phase) :
    ∃ j, s.phase = .run j .waitClock ∧ exec j s = .next t := by
  obtain ⟨-, -, rfl⟩ | ⟨_, _, _, -, -, -, rfl⟩ | ⟨_, _, -, -, -, rfl⟩ | ⟨_, -, rfl⟩ | ⟨_, _, -, rfl⟩ |
    ⟨j, pos, hs, hpos, hexec⟩ := step_next ht
  · exact absurd rfl hne
  · cases hphase
  · cases hphase
  · cases hphase
  · cases hphase
  · by_cases hclock : pos = .waitClock
    · exact ⟨j, hclock ▸ hs, hexec⟩
    · exact absurd hr (exec_noTimeoutDue hs hpos hclock hexec i r hphase)

/-- Settles O59: the step is the timeout test of the invariant's polling wait, and not one that goes on to the
sleep. -/
theorem noEarlyTimeout : Obligations.NoEarlyTimeout := by
  intro s t i r hwf ht hphase hr hne
  obtain ⟨j, hs, hexec⟩ := step_timeout_inv ht hphase hr hne
  obtain ⟨w, hpolling⟩ := ((phaseFits_run hs).mp hwf.phaseFits).polling hs rfl
  obtain rfl | ⟨c, rest, ha, ⟨hexpired, hdue⟩ | hpause⟩ := exec_waitClock_next hpolling.watches hs hpolling.wait hexec
  · exact absurd rfl hne
  · obtain ⟨rfl, -⟩ := Phase.run.inj (hphase.symm.trans hdue)
    exact ⟨w, c, rest, hs, hpolling.wait, ha, hpolling.watches, hexpired⟩
  · cases hphase.symm.trans hpause

end Sys2Proof.Machine
end

section
/-! SUPPORT. Proof of the statement on LAST_ERROR after any step (60_exceptions.md R222). A step either emits a response
from the state it starts in, or leaves LAST_ERROR: a request with no primitive emits at its start, and at every other
position a running request only goes on. -/

namespace Sys2Proof.Machine

/-! ### R222's classification -/

/-- LAST_ERROR after the response of whichever request runs, R222's classification written out. -/
theorem Phase.nextLastError_eq (p : Phase) (r : Response) (e : Status) :
    p.nextLastError r e =
      match p with
      | .run .lastError _ => e
      | _ => if r.status ≠ .ok then r.status else if r.chk = .mismatch then .integrityFailure else e :=
  rfl

/-- No response sets LAST_ERROR back to NONE. -/
theorem Response.eq_ok_of_classify_eq_ok {r : Response} {e : Status} (h : r.classify e = .ok) : e = .ok := by
  unfold Response.classify at h
  split at h
  · next hfailed => exact absurd h hfailed
  · split at h
    · cases h
    · exact h

theorem Phase.eq_ok_of_nextLastError_eq_ok {p : Phase} {r : Response} {e : Status}
    (h : p.nextLastError r e = .ok) : e = .ok := by
  unfold Phase.nextLastError at h
  split at h
  · exact h
  · exact Response.eq_ok_of_classify_eq_ok h

/-! ### A running request emits at its start or goes on -/

section
variable {i : Instr} {pos : Pos} {s t : State}

/-- A step that performs a primitive, or waits for its answer, stays in its request. -/
theorem Performs.runs {p : Primitive} {r : Result} (h : Performs p s r) (hnil : s.answers = [] → r = .next s)
    (hs : s.phase = .run i pos) (ht : r = .next t) : ∃ q, t.phase = .run i q := by
  cases ha : s.answers with
  | nil =>
    obtain rfl := Host.Outcome.next.inj ((hnil ha).symm.trans ht)
    exact ⟨pos, hs⟩
  | cons a rest =>
    obtain ⟨e, -, -, -, q, hq⟩ := h t a rest ha ht
    exact ⟨q, by rw [hq, State.answered_phase, hs, Phase.moveTo_run]⟩

theorem waitLoop_runs {bit : WaitBit} {ready : Byte → State → State} (hready : ∀ b u, StaysInRequest u (ready b u))
    (hs : s.phase = .run i pos) (ht : waitLoop bit ready pos s = .next t) : ∃ q, t.phase = .run i q := by
  obtain ⟨w, -, ⟨-, h⟩ | ⟨-, h⟩ | ⟨-, h⟩⟩ := waitLoop_next ht
  · exact (memRead_performs (staysInRequest_afterPoll hready w)).runs memRead_unanswered hs h
  · exact (now_performs (staysInRequest_afterClock w)).runs now_unanswered hs h
  · exact (sleep_performs fun u => staysInRequest_moveTo u _).runs sleep_unanswered hs h

theorem eeSequence_runs {code : Byte} {wait : Bool} {timeout : Word32} (hs : s.phase = .run i pos)
    (ht : eeSequence code wait timeout pos s = .next t) : ∃ q, t.phase = .run i q := by
  obtain ⟨-, h⟩ | ⟨-, h⟩ | ⟨-, -, h⟩ := eeSequence_next ht
  · exact (eeCommand_performs code wait s).runs memWrite_unanswered hs h
  · exact (waitEnter_performs .eeprom timeout s).runs now_unanswered hs h
  · exact waitLoop_runs (staysInRequest_eeReady code) hs h

theorem waitAlone_runs {bit : WaitBit} {timeout : Word32} (hs : s.phase = .run i pos)
    (ht : waitAlone bit timeout pos s = .next t) : ∃ q, t.phase = .run i q := by
  obtain ⟨-, h⟩ | ⟨-, h⟩ := waitAlone_next ht
  · exact (waitEnter_performs bit timeout s).runs now_unanswered hs h
  · exact waitLoop_runs staysInRequest_waitReady hs h

/-- At its start, a request emits its response at once or performs its first primitive. -/
theorem exec_start_emits_or_runs (hs : s.phase = .run i .start) (ht : exec i s = .next t) :
    (∃ r, t = s.emit r) ∨ ∃ q, t.phase = .run i q := by
  cases hp : firstPrimitive s i with
  | none =>
    obtain ⟨r, hr⟩ := exec_start_emits hs hp
    exact .inl ⟨r, (Host.Outcome.next.inj (hr.symm.trans ht)).symm⟩
  | some p => exact .inr ((exec_start_performs hs hp).runs (exec_start_takes hs hp).unanswered hs ht)

/-- After its start, no step of a request's pseudocode emits, not even at a position that no run reaches. -/
theorem exec_later_runs (hs : s.phase = .run i pos) (hpos : ∀ r, pos ≠ .respond r) (hstart : pos ≠ .start)
    (ht : exec i s = .next t) : ∃ q, t.phase = .run i q := by
  cases i with
  | readTemp =>
    cases pos with
    | start => exact absurd rfl hstart
    | delayed => exact (readN_finish_performs _).runs memRead_unanswered hs (body_next hs hpos ht)
    | _ => cases body_next hs hpos ht
  | singleShot =>
    cases pos with
    | start => exact absurd rfl hstart
    | triggered =>
      exact (sleep_performs fun u => staysInRequest_moveTo u _).runs sleep_unanswered hs (body_next hs hpos ht)
    | delayed => exact (readN_finish_performs _).runs memRead_unanswered hs (body_next hs hpos ht)
    | _ => cases body_next hs hpos ht
  | heaterOn | heaterOff =>
    cases pos with
    | start => exact absurd rfl hstart
    | commandRead => exact (writeN_finish_performs _).runs memWrite_unanswered hs (body_next hs hpos ht)
    | _ => cases body_next hs hpos ht
  | eeCopyPage | eeRecallPage | eeFullRecall | eeSoftReset => exact eeSequence_runs hs (body_next hs hpos ht)
  | waitConversion | waitEeprom => exact waitAlone_runs hs (body_next hs hpos ht)
  | _ => exact absurd (atStart_next (body_next hs hpos ht)).1 hstart

/-- A running request whose response is not due emits from the state it is in, or goes on. -/
theorem exec_emits_or_runs (hs : s.phase = .run i pos) (hpos : ∀ r, pos ≠ .respond r) (ht : exec i s = .next t) :
    (∃ r, t = s.emit r) ∨ ∃ q, t.phase = .run i q := by
  by_cases hstart : pos = .start
  · subst hstart
    exact exec_start_emits_or_runs hs ht
  · exact .inr (exec_later_runs hs hpos hstart ht)

end

/-! ### One step -/

/-- LAST_ERROR holds `e` until a response is emitted, as a relation that every operation keeps. -/
theorem lastError_congruence (i : Instr) (e : Status) :
    Congruence i fun u u' => u' = u ∧ (u.phase ≠ .idle → u.lastError = e) where
  reads := by
    rintro u _ ⟨rfl, -⟩
    exact ⟨rfl, rfl, rfl, rfl, rfl, rfl, rfl⟩
  moveTo := by
    rintro u _ ⟨rfl, h⟩ q
    exact ⟨rfl, fun hrun => h fun hidle => hrun (by rw [State.moveTo_phase, hidle, Phase.moveTo_idle])⟩
  setCfg := by rintro - u _ ⟨rfl, h⟩ m; exact ⟨rfl, h⟩
  setMode := by rintro - u _ ⟨rfl, h⟩ m; exact ⟨rfl, h⟩
  setWait := by rintro u _ ⟨rfl, h⟩ w; exact ⟨rfl, h⟩
  setEe := by rintro u _ ⟨rfl, h⟩ e; exact ⟨rfl, h⟩
  answered := by rintro u _ ⟨rfl, h⟩ rest e; exact ⟨rfl, h⟩
  emit := by rintro u _ ⟨rfl, -⟩ r -; exact ⟨rfl, fun hrun => absurd (State.emit_phase _ r) hrun⟩

/-- A running request leaves LAST_ERROR while it runs. -/
theorem exec_lastError {i : Instr} {pos : Pos} {s t : State} (hs : s.phase = .run i pos)
    (hpos : ∀ r, pos ≠ .respond r) (ht : exec i s = .next t) (hrun : t.phase ≠ .idle) :
    t.lastError = s.lastError := by
  obtain ⟨_, -, rfl, h⟩ := (lastError_congruence i s.lastError).exec ⟨rfl, fun _ => rfl⟩ hs hpos t ht
  exact h hrun

/-- A step emits a response from outside IDLE, or it leaves LAST_ERROR and does not end a request. -/
theorem step_emits_or_keeps_lastError {s t : State} (ht : step s = .next t) :
    (s.phase ≠ .idle ∧ ∃ r, t = s.emit r) ∨
    ((s.phase = .idle ∨ t.phase ≠ .idle) ∧ t.lastError = s.lastError) := by
  obtain ⟨hs, -, rfl⟩ | ⟨_, _, _, hs, -, -, rfl⟩ | ⟨_, _, hs, -, -, rfl⟩ | ⟨_, hs, rfl⟩ | ⟨_, _, hs, rfl⟩ |
    ⟨i, pos, hs, hpos, hexec⟩ := step_next ht
  · exact .inr ⟨.inl hs, rfl⟩
  · exact .inr ⟨.inl hs, State.accept_lastError s _⟩
  · exact .inr ⟨.inl hs, State.acceptIllegal_lastError s _⟩
  · exact .inl ⟨by simp [hs], _, rfl⟩
  · exact .inl ⟨by simp [hs], _, rfl⟩
  · obtain hemits | ⟨q, hq⟩ := exec_emits_or_runs hs hpos hexec
    · exact .inl ⟨by simp [hs], hemits⟩
    · have hrun : t.phase ≠ .idle := by simp [hq]
      exact .inr ⟨.inr hrun, exec_lastError hs hpos hexec hrun⟩

/-- An illegal word, whatever its opcode, is recorded as PARAMETER_ERROR (60_exceptions.md R222; 30_encoding.md
R83). -/
theorem emit_illegalResponse_lastError {s : State} {op : Byte} (hs : s.phase = .runIllegal op) :
    (s.emit illegalResponse).lastError = .parameterError := by
  rw [State.emit_lastError, hs, Phase.nextLastError_runIllegal]
  rfl

/-- Settles O11: a step emits or leaves LAST_ERROR, and an emission follows R222's classification. -/
theorem lastErrorFollowsTheEmittedResponse : Obligations.LastErrorFollowsTheEmittedResponse := by
  refine ⟨fun s t ht hs hidle => ?_, fun s t ht hstays => ?_, fun s op hs => ?_, fun s t ht hok => ?_, rfl⟩
  · obtain ⟨-, r, rfl⟩ | ⟨hstays, -⟩ := step_emits_or_keeps_lastError ht
    · exact Phase.nextLastError_eq s.phase r s.lastError
    · exact absurd hstays (by simp [hs, hidle])
  · obtain ⟨hs, r, rfl⟩ | ⟨-, hkept⟩ := step_emits_or_keeps_lastError ht
    · exact absurd hstays (by simp [hs])
    · exact hkept
  · exact ⟨_, step_runIllegal hs, emit_illegalResponse_lastError hs⟩
  · obtain ⟨-, r, rfl⟩ | ⟨-, hkept⟩ := step_emits_or_keeps_lastError ht
    · exact Phase.eq_ok_of_nextLastError_eq_ok hok
    · exact hkept ▸ hok

end Sys2Proof.Machine
end

section
/-! SUPPORT. Proof of the statement on the EEPROM requests and the block's registers (70_reset_and_hazards.md R252;
42_wait_eeprom.md R195). No EEPROM request is made of an operation that writes a mirror, so its steps leave both; what
it does to LAST_ERROR is what the emission of a response does. -/

namespace Sys2Proof.Machine

/-! ### The mirrors under a request that writes none -/

/-- A running request that writes neither mirror leaves both, in the emission of its response too. -/
theorem step_run_mirrors {i : Instr} {pos : Pos} {s t : State} (hs : s.phase = .run i pos)
    (hcfg : writesCfg i = false) (hmode : writesMode i = false) (ht : step s = .next t) :
    t.cfg = s.cfg ∧ t.mode = s.mode := by
  by_contra hne
  obtain ⟨_, _, hs', hpos, hexec⟩ := step_changes (fun u => (u.cfg, u.mode)) (fun _ _ => rfl) (fun _ _ => rfl) ht
    fun h => hne (Prod.mk.inj h)
  cases hs.symm.trans hs'
  have hframe := exec_runFrame hs hpos hexec
  exact hne ⟨hframe.cfg hcfg, hframe.mode hmode⟩

/-! ### The EEPROM requests -/

theorem writesNoMirror_of_isEeprom {i : Instr} (hi : isEeprom i = true) :
    writesCfg i = false ∧ writesMode i = false := by
  cases i with
  | configure | setMode | singleShot => cases hi
  | _ => exact ⟨rfl, rfl⟩

/-- R222 classifies the response of an EEPROM request; the exception is the request LAST_ERROR. -/
theorem emit_lastError_of_isEeprom {i : Instr} {pos : Pos} {s : State} (hi : isEeprom i = true)
    (hs : s.phase = .run i pos) (r : Response) : (s.emit r).lastError = r.classify s.lastError := by
  have hother : i ≠ .lastError := by rintro rfl; cases hi
  rw [State.emit_lastError, hs, Phase.nextLastError_run i pos r _ hother]

/-- Settles O60: neither mirror is among what an EEPROM request writes, no step writes BUS_ADDR, and a step that does
not keep LAST_ERROR emits. -/
theorem eepromRequestsLeaveTheMirrors : Obligations.EepromRequestsLeaveTheMirrors := by
  intro s t i pos hi hs ht
  obtain ⟨hnoCfg, hnoMode⟩ := writesNoMirror_of_isEeprom hi
  obtain ⟨hcfg, hmode⟩ := step_run_mirrors hs hnoCfg hnoMode ht
  obtain ⟨hbusAddr, -⟩ := step_busAddr_params ht
  refine ⟨hcfg, hmode, hbusAddr, ?_⟩
  obtain ⟨-, r, rfl⟩ | ⟨-, hkept⟩ := step_emits_or_keeps_lastError ht
  · exact .inr ⟨State.emit_phase s r, emit_lastError_of_isEeprom hi hs r⟩
  · exact .inl hkept

end Sys2Proof.Machine
end
